-- ==== Sys2Proof/Word.lean ====
section
/-! DEFINITION. The units of the wire and of the registers: 8-bit bytes, 16-bit words (spec/00_scope.md R8,
spec/20_memory.md R61) and 64-bit command words (spec/30_encoding.md R97). -/

namespace Sys2Proof

/-- `u8` (R8): the unit of everything on the wire. -/
abbrev Byte := BitVec 8

/-- `u16` (R8): a Modbus register, a CSR, a 16-bit operand. -/
abbrev Word := BitVec 16

/-- A command word (R97), or a request frame read as one number, byte 0 the most significant. -/
abbrev Word64 := BitVec 64

end Sys2Proof
end

