-- ==== Sys2Proof/Config.lean ====
section
/-! DEFINITION. The parameters of spec/00_scope.md R7. HOST_BINDING and CYCLES_PER_COMMAND are open parameters
that no rule reads; they are not modelled (assumption log 12). The spec leaves no value free
(spec/93_implementation_defined.md, end of Part 1), so there is no opaque constant here. -/

namespace Sys2Proof.Config

/-- `CRC_INIT` (R7): the value the CRC accumulator starts from. -/
def crcInit : Word := 0xFFFF

/-- `CRC_POLY_R` (R7): the reflected polynomial, XORed in after a shift when the bit shifted out was 1. -/
def crcPolyR : Word := 0xA001

/-- `REQ_LEN` (R7): the length of every request frame. -/
def reqLen : Nat := 8

/-- `RSP_MIN_LEN` (R7): the shortest response the decoder inspects. -/
def rspMinLen : Nat := 5

/-- `RX_BUF_BYTES` (R7; spec/92_eei_decisions.md D6): the capacity of the receive buffer. -/
def rxBufBytes : Nat := 260

/-- `MAX_REGS` (R7): the largest number of registers one response can carry. -/
def maxRegs : Nat := 127

/-- The highest CSR number (spec/10_state.md R36). -/
def csrMax : Byte := 0x0D

/-- What an index of a buffer reads as when nothing is stored there. The spec leaves the storage unspecified and
unobservable (spec/10_state.md R45). DESIGN CHOICE, assumption log 8. -/
def unlistedByte : Byte := 0

end Sys2Proof.Config
end

