-- ==== Sys2Proof/Machine/Operands.lean ====
section
/-! DEFINITION. The operand primitives of spec/00_scope.md R9 and the CRC functions of spec/40_crc.md R110, R111, R117. -/

namespace Sys2Proof.Machine

/-- `hi(v)` (R9): bits 15:8. -/
def hi (v : Word) : Byte := v.extractLsb' 8 8

/-- `lo(v)` (R9): bits 7:0. -/
def lo (v : Word) : Byte := v.extractLsb' 0 8

/-- `zext_16` of a byte (R9). -/
def zext16 (b : Byte) : Word := b.setWidth 16

/-- `be16(h, l)` (R9): the word whose high byte is `h`. -/
def be16 (h l : Byte) : Word := zext16 h <<< 8 ||| zext16 l

/-- `le16(l, h)` (R9): the same number, its low byte first on the wire. -/
def le16 (l h : Byte) : Word := be16 h l

/-- Bit 7 of a function code, 0x80: it selects the error format (R83, R84). -/
def errorBit (f : Byte) : Bool := f &&& 0x80 != 0

/-- `crc_shift1` (spec/40_crc.md R110): one serial step; the test is on the bit shifted out. -/
def crcShift1 (a : Word) : Word :=
  if a.getLsbD 0 then (a >>> 1) ^^^ Config.crcPolyR else a >>> 1

/-- `n` serial steps. -/
def crcShifts : Nat → Word → Word
  | 0, a => a
  | n + 1, a => crcShifts n (crcShift1 a)

/-- `crc_update` (R111): the byte enters the low half of the accumulator, then exactly eight serial steps. -/
def crcUpdate (a : Word) (b : Byte) : Word := crcShifts 8 (a ^^^ zext16 b)

/-- The accumulator after absorbing `data` in ascending order from `a` (R117's loop). -/
def crcFrom (a : Word) : List Byte → Word
  | [] => a
  | b :: data => crcFrom (crcUpdate a b) data

/-- `crc16` (R117): no final XOR, no byte swap. -/
def crc16 (data : List Byte) : Word := crcFrom Config.crcInit data

/-- `c` in wire order, low byte first (spec/20_memory.md R64). -/
def crcBytes (c : Word) : List Byte := [lo c, hi c]

end Sys2Proof.Machine
end

