-- ==== Sys2Proof/Machine/Wire.lean ====
section
/-! DEFINITION. The contracts of the encoder and the decoder as pure functions: `build_request` (spec/41_encoder.md
R132), `msg` (spec/30_encoding.md R93), `decode_response` (spec/42_decoder.md R161), `make_response` and `make_error`
(R167). -/

namespace Sys2Proof.Machine

/-- The document's `ProtocolError` (spec/60_exceptions.md R210). -/
inductive ProtocolError where
  | shortResponse
  | deviceError (code : Byte) (message : String)
  | crcMismatch
deriving DecidableEq, Repr

/-- `msg_id` (R93): 1 to 9 for the listed codes, 10 for every other code (R94). -/
def msgIdOf (code : Byte) : BitVec 4 :=
  if code = 0x01 then 1
  else if code = 0x02 then 2
  else if code = 0x03 then 3
  else if code = 0x04 then 4
  else if code = 0x05 then 5
  else if code = 0x06 then 6
  else if code = 0x08 then 7
  else if code = 0x0A then 8
  else if code = 0x0B then 9
  else 10

/-- `msg_string` (R93). -/
def msgString (code : Byte) : String :=
  if code = 0x01 then "illegal function"
  else if code = 0x02 then "illegal data address"
  else if code = 0x03 then "illegal data value"
  else if code = 0x04 then "slave device failure"
  else if code = 0x05 then "acknowledge"
  else if code = 0x06 then "slave device busy"
  else if code = 0x08 then "memory parity error"
  else if code = 0x0A then "gateway path unavailable"
  else if code = 0x0B then "gateway target device failed to respond"
  else "unknown error"

/-- The nine codes of R92's table. -/
def listedCodes : List Byte := [0x01, 0x02, 0x03, 0x04, 0x05, 0x06, 0x08, 0x0A, 0x0B]

/-- The six header bytes of a request (R81, R132), 16-bit fields high byte first. -/
def requestHeader (a f : Byte) (s n : Word) : List Byte := [a, f, hi s, lo s, hi n, lo n]

/-- `build_request` (R132): six header bytes and their CRC, low byte first. -/
def buildRequest (a f : Byte) (s n : Word) : List Byte :=
  requestHeader a f s n ++ crcBytes (crc16 (requestHeader a f s n))

/-- Byte `i` of a received sequence. Every use is behind a length test that covers `i` (R168). -/
def byteOf (raw : List Byte) (i : Nat) : Byte := raw.getD i 0

/-- The registers of a payload of `bc` bytes starting at index 3 (R150 step 5): `bc div 2` of them, high byte first. -/
def registersOf (raw : List Byte) (bc : Nat) : List Word :=
  (List.range (bc / 2)).map fun k => be16 (byteOf raw (3 + 2 * k)) (byteOf raw (3 + 2 * k + 1))

/-- `decode_response` (R161). -/
def decodeResponse (raw : List Byte) (strict : Bool) : Except ProtocolError (List Word) :=
  if raw.length < Config.rspMinLen then .error .shortResponse
  else if errorBit (byteOf raw 1) then
    .error (.deviceError (byteOf raw 2) (msgString (byteOf raw 2)))
  else
    let bc := (byteOf raw 2).toNat
    if raw.length < 3 + bc + 2 then .error .shortResponse
    else if strict && le16 (byteOf raw (3 + bc)) (byteOf raw (3 + bc + 1)) != crc16 (raw.take (3 + bc)) then
      .error .crcMismatch
    else .ok (registersOf raw bc)

/-- The payload bytes of a register sequence, high byte first (R167). -/
def payloadOf : List Word → List Byte
  | [] => []
  | r :: regs => hi r :: lo r :: payloadOf regs

/-- `make_response` (R167): the normal response that carries `regs`, which has at most 127 entries. -/
def makeResponse (a f : Byte) (regs : List Word) : List Byte :=
  let p := a :: f :: BitVec.ofNat 8 (2 * regs.length) :: payloadOf regs
  p ++ crcBytes (crc16 p)

/-- `make_error` (R167): the error response carrying exception code `e`. -/
def makeError (a f e : Byte) : List Byte :=
  let p := [a, f ||| 0x80, e]
  p ++ crcBytes (crc16 p)

end Sys2Proof.Machine
end

