-- ==== Sys2Proof/Syntax.lean ====
section
/-! DEFINITION. The instructions: one constructor per row of spec/opcode_table.json (spec/30_encoding.md R101), and
what the host can present to the block. -/

namespace Sys2Proof

/-- The rows of spec/opcode_table.json. The first fifteen are the commands of R95; the other sixteen are the wire rows
of R101, whose operands are the fields of the frame. `x` in a response row is the expected register count that the host
gives to `DEC.PARSE` for that frame; it is no part of the frame (assumption log 4). -/
inductive Instr where
  -- SYS
  | sysReset
  | sysRd (r : Byte)
  | sysWr (r : Byte) (v : Word)
  -- CRC
  | crcInit
  | crcXorb (b : Byte)
  | crcShift
  | crcByte (b : Byte)
  | crcRead
  -- ENC
  | encBuild (a f : Byte) (s n : Word)
  | txPop
  -- DEC
  | rxClear
  | rxPush (b : Byte)
  | decParse (e : Word)
  | decRdreg (i : Byte)
  | decRdraw (j : Word)
  -- request frames (R81, R86)
  | req (a f : Byte) (s n : Word) (l h : Byte)
  | reqF03 (a : Byte) (s n : Word) (l h : Byte)
  -- normal responses (R82, R86)
  | rspN (x : Word) (a f bc : Byte) (payload : List Byte) (l h : Byte)
  | rspNF03 (x : Word) (a bc : Byte) (payload : List Byte) (l h : Byte)
  -- error responses (R83, R86, R93, R94)
  | rspE (x : Word) (a f e l h : Byte)
  | rspEF83 (x : Word) (a e l h : Byte)
  | exc01 (x : Word) (a f l h : Byte)
  | exc02 (x : Word) (a f l h : Byte)
  | exc03 (x : Word) (a f l h : Byte)
  | exc04 (x : Word) (a f l h : Byte)
  | exc05 (x : Word) (a f l h : Byte)
  | exc06 (x : Word) (a f l h : Byte)
  | exc08 (x : Word) (a f l h : Byte)
  | exc0A (x : Word) (a f l h : Byte)
  | exc0B (x : Word) (a f l h : Byte)
  | excUnknown (x : Word) (a f e l h : Byte)
deriving DecidableEq, Repr

/-- What the host presents to the block: a command word (R97), a request frame to be built and sent, as the number the
wire convention of spec/30_encoding.md reads it as, or the bytes of a response together with the expected register
count. The three are separate spaces: "a command word is never compared with a frame" (R101). -/
inductive Input where
  | command (w : Word64)
  | request (v : Word64)
  | response (x : Word) (bytes : List Byte)
deriving DecidableEq, Repr

end Sys2Proof
end

