-- ==== Sys2Proof/WellFormed.lean ====
section
/-! DEFINITION. Which instructions an encoding can carry. A command has no ill-formed operand. A wire row is well-formed
when its fields are those of a frame of that row, and the row is the one that names the frame where several rows match it
(spec/30_encoding.md R81 to R83, R101; assumption log 5, 7). -/

namespace Sys2Proof

open Machine (errorBit listedCodes crc16 requestHeader le16)

/-- The last two bytes of a request are the CRC of its first six (R81). -/
abbrev requestCrcOk (a f : Byte) (s n : Word) (l h : Byte) : Prop :=
  le16 l h = crc16 (requestHeader a f s n)

/-- The last two bytes of an error frame are the CRC of its first three (R83). -/
abbrev errorCrcOk (a f e l h : Byte) : Prop := le16 l h = crc16 [a, f, e]

/-- The check, instruction by instruction. -/
def wellFormed : Instr → Bool
  | .sysReset | .sysRd _ | .sysWr _ _ => true
  | .crcInit | .crcXorb _ | .crcShift | .crcByte _ | .crcRead => true
  | .encBuild _ _ _ _ | .txPop => true
  | .rxClear | .rxPush _ | .decParse _ | .decRdreg _ | .decRdraw _ => true
  | .req a f s n l h => decide (f ≠ 0x03 ∧ requestCrcOk a f s n l h)
  | .reqF03 a s n l h => decide (requestCrcOk a 0x03 s n l h)
  | .rspN _ _ f bc payload _ _ => decide (errorBit f = false ∧ f ≠ 0x03 ∧ payload.length = bc.toNat)
  | .rspNF03 _ _ bc payload _ _ => decide (payload.length = bc.toNat)
  | .rspE _ a f e l h => decide (errorBit f = true ∧ f ≠ 0x83 ∧ e ∉ listedCodes ∧ ¬ errorCrcOk a f e l h)
  | .rspEF83 _ a e l h => decide (e ∉ listedCodes ∧ ¬ errorCrcOk a 0x83 e l h)
  | .exc01 _ _ f _ _ | .exc02 _ _ f _ _ | .exc03 _ _ f _ _ => errorBit f
  | .exc04 _ _ f _ _ | .exc05 _ _ f _ _ | .exc06 _ _ f _ _ => errorBit f
  | .exc08 _ _ f _ _ | .exc0A _ _ f _ _ | .exc0B _ _ f _ _ => errorBit f
  | .excUnknown _ a f e l h => decide (errorBit f = true ∧ e ∉ listedCodes ∧ errorCrcOk a f e l h)

/-- An instruction whose operands are those of a command word or of a frame of its row. -/
abbrev WellFormed (i : Instr) : Prop := wellFormed i = true

end Sys2Proof
end

