-- ==== Sys2Proof/Decode.lean ====
section
/-! DEFINITION. Decoding and encoding: command words (spec/30_encoding.md R97 to R100), request frames (R81) and
response frames (R82 to R84), and the numbering of spec/opcode_table.json. -/

namespace Sys2Proof

open Machine (errorBit listedCodes)

/-- Why an input is no instruction. -/
inductive DecodeError where
  /-- A command word that matches no row of R98, or has a reserved bit set (R99). -/
  | illegalCommand
  /-- Response bytes that are not exactly one frame: too few, too many, or fewer than announced (R84). -/
  | notOneFrame (x : Word) (bytes : List Byte)
deriving DecidableEq, Repr

/-! ### Command words -/

/-- The opcode, bits 63:56 (R97). -/
def opcodeOf (w : Word64) : Byte := w.extractLsb' 56 8

/-- Format CW0: no operand, bits 55:0 reserved (R97). -/
def cw0 (w : Word64) (i : Instr) : Option Instr :=
  if w.extractLsb' 0 56 = 0 then some i else none

/-- Format CW8: one byte in bits 55:48, bits 47:0 reserved. -/
def cw8 (w : Word64) (i : Byte → Instr) : Option Instr :=
  if w.extractLsb' 0 48 = 0 then some (i (w.extractLsb' 48 8)) else none

/-- Format CW16: one word in bits 55:40, high byte first, bits 39:0 reserved. -/
def cw16 (w : Word64) (i : Word → Instr) : Option Instr :=
  if w.extractLsb' 0 40 = 0 then some (i (w.extractLsb' 40 16)) else none

/-- Format CW8_16: a byte in bits 55:48 and a word in bits 47:32, bits 31:0 reserved. -/
def cw816 (w : Word64) (i : Byte → Word → Instr) : Option Instr :=
  if w.extractLsb' 0 32 = 0 then some (i (w.extractLsb' 48 8) (w.extractLsb' 32 16)) else none

/-- Format CWB: bits 55:8 are two bytes and two words, bits 7:0 reserved. -/
def cwB (w : Word64) (i : Byte → Byte → Word → Word → Instr) : Option Instr :=
  if w.extractLsb' 0 8 = 0 then
    some (i (w.extractLsb' 48 8) (w.extractLsb' 40 8) (w.extractLsb' 24 16) (w.extractLsb' 8 16))
  else none

/-- The opcode map of R98; every other word is illegal (R99). -/
def decodeCommand (w : Word64) : Option Instr :=
  let op := opcodeOf w
  if op = 0x01 then cw0 w .sysReset
  else if op = 0x02 then cw8 w .sysRd
  else if op = 0x03 then cw816 w .sysWr
  else if op = 0x10 then cw0 w .crcInit
  else if op = 0x11 then cw8 w .crcXorb
  else if op = 0x12 then cw0 w .crcShift
  else if op = 0x13 then cw8 w .crcByte
  else if op = 0x14 then cw0 w .crcRead
  else if op = 0x20 then cwB w .encBuild
  else if op = 0x21 then cw0 w .txPop
  else if op = 0x30 then cw0 w .rxClear
  else if op = 0x31 then cw8 w .rxPush
  else if op = 0x32 then cw16 w .decParse
  else if op = 0x33 then cw8 w .decRdreg
  else if op = 0x34 then cw16 w .decRdraw
  else none

/-! ### Frames -/

/-- A request frame: no bit of it is fixed (R81), so every string is of the format; the row REQ.F03 refines REQ for
function code 0x03 (R86, R101). -/
def decodeRequest (v : Word64) : Instr :=
  let a := v.extractLsb' 56 8
  let f := v.extractLsb' 48 8
  let s := v.extractLsb' 32 16
  let n := v.extractLsb' 16 16
  let l := v.extractLsb' 8 8
  let h := v.extractLsb' 0 8
  if f = 0x03 then .reqF03 a s n l h else .req a f s n l h

/-- The row that names an error frame (R83, R86, R92 to R94, R101): the row of a listed code; else EXC.UNKNOWN when the
CRC is right; else the format by its function code. The rows overlap and mean the same on the same frame; which one
names it is DESIGN CHOICE, assumption log 5. -/
def errorRow (x : Word) (a f e l h : Byte) : Instr :=
  if e = 0x01 then .exc01 x a f l h
  else if e = 0x02 then .exc02 x a f l h
  else if e = 0x03 then .exc03 x a f l h
  else if e = 0x04 then .exc04 x a f l h
  else if e = 0x05 then .exc05 x a f l h
  else if e = 0x06 then .exc06 x a f l h
  else if e = 0x08 then .exc08 x a f l h
  else if e = 0x0A then .exc0A x a f l h
  else if e = 0x0B then .exc0B x a f l h
  else if errorCrcOk a f e l h then .excUnknown x a f e l h
  else if f = 0x83 then .rspEF83 x a e l h
  else .rspE x a f e l h

/-- The row that names a normal frame (R82, R86). -/
def normalRow (x : Word) (a f bc : Byte) (payload : List Byte) (l h : Byte) : Instr :=
  if f = 0x03 then .rspNF03 x a bc payload l h else .rspN x a f bc payload l h

/-- The bytes of exactly one response frame (R84): at least five bytes; bit 7 of byte 1 selects the format; then the
length must be 5 for an error frame and `3 + byte_count + 2` for a normal one. -/
def decodeFrame (x : Word) : List Byte → Option Instr
  | a :: f :: c :: rest =>
    if errorBit f then
      match rest with
      | [l, h] => some (errorRow x a f c l h)
      | _ => none
    else
      match rest.drop c.toNat with
      | [l, h] => some (normalRow x a f c (rest.take c.toNat) l h)
      | _ => none
  | _ => none

/-- The decoder, total on every input. -/
def decode : Input → Except DecodeError Instr
  | .command w =>
    match decodeCommand w with
    | some i => .ok i
    | none => .error .illegalCommand
  | .request v => .ok (decodeRequest v)
  | .response x bytes =>
    match decodeFrame x bytes with
    | some i => .ok i
    | none => .error (.notOneFrame x bytes)

/-! ### Encoding -/

/-- The word of a CW0 command (R97). -/
def encCw0 (op : Byte) : Input := .command (op ++ 0#56)

/-- The word of a CW8 command. -/
def encCw8 (op b : Byte) : Input := .command (op ++ b ++ 0#48)

/-- The word of a CW16 command. -/
def encCw16 (op : Byte) (e : Word) : Input := .command (op ++ e ++ 0#40)

/-- A request frame as a number, byte 0 the most significant (R81). -/
def encRequest (a f : Byte) (s n : Word) (l h : Byte) : Input := .request (a ++ f ++ s ++ n ++ l ++ h)

/-- The five bytes of an error frame (R83). -/
def encError (x : Word) (a f e l h : Byte) : Input := .response x [a, f, e, l, h]

/-- The bytes of a normal frame (R82). -/
def encNormal (x : Word) (a f bc : Byte) (payload : List Byte) (l h : Byte) : Input :=
  .response x (a :: f :: bc :: (payload ++ [l, h]))

/-- The encoder, from the tables of R97, R98 and R81 to R83. -/
def encode : Instr → Input
  | .sysReset => encCw0 0x01
  | .sysRd r => encCw8 0x02 r
  | .sysWr r v => .command (0x03#8 ++ r ++ v ++ 0#32)
  | .crcInit => encCw0 0x10
  | .crcXorb b => encCw8 0x11 b
  | .crcShift => encCw0 0x12
  | .crcByte b => encCw8 0x13 b
  | .crcRead => encCw0 0x14
  | .encBuild a f s n => .command (0x20#8 ++ a ++ f ++ s ++ n ++ 0#8)
  | .txPop => encCw0 0x21
  | .rxClear => encCw0 0x30
  | .rxPush b => encCw8 0x31 b
  | .decParse e => encCw16 0x32 e
  | .decRdreg i => encCw8 0x33 i
  | .decRdraw j => encCw16 0x34 j
  | .req a f s n l h => encRequest a f s n l h
  | .reqF03 a s n l h => encRequest a 0x03 s n l h
  | .rspN x a f bc payload l h => encNormal x a f bc payload l h
  | .rspNF03 x a bc payload l h => encNormal x a 0x03 bc payload l h
  | .rspE x a f e l h => encError x a f e l h
  | .rspEF83 x a e l h => encError x a 0x83 e l h
  | .exc01 x a f l h => encError x a f 0x01 l h
  | .exc02 x a f l h => encError x a f 0x02 l h
  | .exc03 x a f l h => encError x a f 0x03 l h
  | .exc04 x a f l h => encError x a f 0x04 l h
  | .exc05 x a f l h => encError x a f 0x05 l h
  | .exc06 x a f l h => encError x a f 0x06 l h
  | .exc08 x a f l h => encError x a f 0x08 l h
  | .exc0A x a f l h => encError x a f 0x0A l h
  | .exc0B x a f l h => encError x a f 0x0B l h
  | .excUnknown x a f e l h => encError x a f e l h

/-! ### The opcode map as masks and patterns (R98) -/

/-- A row of R98's table: a word `w` is the command when `w & mask = pattern`. -/
structure CommandRow where
  mnemonic : String
  pattern : Word64
  mask : Word64
deriving DecidableEq, Repr

/-- R98's table. -/
def commandTable : List CommandRow := [
  ⟨"SYS.RESET", 0x0100000000000000, 0xFFFFFFFFFFFFFFFF⟩,
  ⟨"SYS.RD", 0x0200000000000000, 0xFF00FFFFFFFFFFFF⟩,
  ⟨"SYS.WR", 0x0300000000000000, 0xFF000000FFFFFFFF⟩,
  ⟨"CRC.INIT", 0x1000000000000000, 0xFFFFFFFFFFFFFFFF⟩,
  ⟨"CRC.XORB", 0x1100000000000000, 0xFF00FFFFFFFFFFFF⟩,
  ⟨"CRC.SHIFT", 0x1200000000000000, 0xFFFFFFFFFFFFFFFF⟩,
  ⟨"CRC.BYTE", 0x1300000000000000, 0xFF00FFFFFFFFFFFF⟩,
  ⟨"CRC.READ", 0x1400000000000000, 0xFFFFFFFFFFFFFFFF⟩,
  ⟨"ENC.BUILD", 0x2000000000000000, 0xFF000000000000FF⟩,
  ⟨"TX.POP", 0x2100000000000000, 0xFFFFFFFFFFFFFFFF⟩,
  ⟨"RX.CLEAR", 0x3000000000000000, 0xFFFFFFFFFFFFFFFF⟩,
  ⟨"RX.PUSH", 0x3100000000000000, 0xFF00FFFFFFFFFFFF⟩,
  ⟨"DEC.PARSE", 0x3200000000000000, 0xFF0000FFFFFFFFFF⟩,
  ⟨"DEC.RDREG", 0x3300000000000000, 0xFF00FFFFFFFFFFFF⟩,
  ⟨"DEC.RDRAW", 0x3400000000000000, 0xFF0000FFFFFFFFFF⟩]

/-- A word matches a row (R98). -/
abbrev CommandRow.matches (row : CommandRow) (w : Word64) : Prop := w &&& row.mask = row.pattern

/-- The mnemonic of a command in R98's table; none for a wire row. -/
def commandMnemonic : Instr → Option String
  | .sysReset => some "SYS.RESET"
  | .sysRd _ => some "SYS.RD"
  | .sysWr _ _ => some "SYS.WR"
  | .crcInit => some "CRC.INIT"
  | .crcXorb _ => some "CRC.XORB"
  | .crcShift => some "CRC.SHIFT"
  | .crcByte _ => some "CRC.BYTE"
  | .crcRead => some "CRC.READ"
  | .encBuild _ _ _ _ => some "ENC.BUILD"
  | .txPop => some "TX.POP"
  | .rxClear => some "RX.CLEAR"
  | .rxPush _ => some "RX.PUSH"
  | .decParse _ => some "DEC.PARSE"
  | .decRdreg _ => some "DEC.RDREG"
  | .decRdraw _ => some "DEC.RDRAW"
  | .req _ _ _ _ _ _ | .reqF03 _ _ _ _ _ => none
  | .rspN _ _ _ _ _ _ _ | .rspNF03 _ _ _ _ _ _ => none
  | .rspE _ _ _ _ _ _ | .rspEF83 _ _ _ _ _ => none
  | .exc01 _ _ _ _ _ | .exc02 _ _ _ _ _ | .exc03 _ _ _ _ _ => none
  | .exc04 _ _ _ _ _ | .exc05 _ _ _ _ _ | .exc06 _ _ _ _ _ => none
  | .exc08 _ _ _ _ _ | .exc0A _ _ _ _ _ | .exc0B _ _ _ _ _ => none
  | .excUnknown _ _ _ _ _ _ => none

/-! ### The table's numbering -/

/-- The low `8 * n` bits of `w` as `n` bytes, the most significant first: the wire convention of
spec/30_encoding.md ("byte 0 is the most-significant byte"). -/
def bytesOfNat (w : Nat) : Nat → List Byte
  | 0 => []
  | n + 1 => BitVec.ofNat 8 (w / 256 ^ n) :: bytesOfNat w n

/-- The first bytes of a response completed with zero bytes to the length its own bytes announce (R84). -/
def padFrame (bytes : List Byte) : List Byte :=
  match bytes with
  | _ :: f :: c :: _ =>
    bytes ++ List.replicate ((if errorBit f then 5 else 3 + c.toNat + 2) - bytes.length) 0
  | _ => bytes

/-- What the bits `w` of a table row are (R101; assumption log 6): up to 24 bits the three-byte start of a response, up
to 40 bits its first five bytes, else a 64-bit string, which is a command word where it matches R98's table and a
request frame where it does not. -/
def tableInput (nbits w : Nat) : Input :=
  if nbits ≤ 24 then .response 0 (padFrame (bytesOfNat w 3))
  else if nbits ≤ 40 then .response 0 (padFrame (bytesOfNat w 5))
  else
    let v := BitVec.ofNat 64 w
    match decodeCommand v with
    | some _ => .command v
    | none => .request v

/-- The instruction the decoder reads from the bits `w` of a row of `nbits` bits, numbered as spec/opcode_table.json
numbers them. -/
def decodeTableWord (nbits w : Nat) : Option Instr :=
  match decode (tableInput nbits w) with
  | .ok i => some i
  | .error _ => none

end Sys2Proof
end

