-- ==== Sys2Proof/Machine/Memory.lean ====
section
/-! DEFINITION. A byte buffer as a sorted list of (index, byte) cells in one canonical form (spec/20_memory.md R60, R62;
assumption log 8). -/

namespace Sys2Proof.Machine

/-- A byte buffer: indices strictly rising, no cell equal to what an unlisted index reads as. -/
abbrev Memory := List Host.Cell

/-- The byte at index `a`. -/
def Memory.read : Memory → Nat → Byte
  | [], _ => Config.unlistedByte
  | (k, v) :: m, a => if k = a then v else Memory.read m a

/-- No cell at index `a` any more. -/
def Memory.clearAt : Memory → Nat → Memory
  | [], _ => []
  | (k, v) :: m, a => if k = a then Memory.clearAt m a else (k, v) :: Memory.clearAt m a

/-- A cell at index `a`, before the first cell of a higher index. -/
def Memory.putAt : Memory → Nat → Byte → Memory
  | [], a, v => [(a, v)]
  | (k, w) :: m, a, v => if a < k then (a, v) :: (k, w) :: m else (k, w) :: Memory.putAt m a v

/-- Write `v` at index `a`, keeping the canonical form: what an unlisted index reads as is not listed. -/
def Memory.write (m : Memory) (a : Nat) (v : Byte) : Memory :=
  if v = Config.unlistedByte then Memory.clearAt m a else Memory.putAt (Memory.clearAt m a) a v

/-- `MemRead(space, a, n)` (R62): the `n` bytes from index `a`. -/
def Memory.readBytes (m : Memory) (a : Nat) : Nat → List Byte
  | 0 => []
  | n + 1 => Memory.read m a :: Memory.readBytes m (a + 1) n

/-- `MemWrite(space, a, n, bytes)` (R62). -/
def Memory.writeBytes (m : Memory) (a : Nat) : List Byte → Memory
  | [] => m
  | b :: bytes => Memory.writeBytes (Memory.write m a b) (a + 1) bytes

/-- Every index is at least `low`, the indices rise strictly, and no cell holds the unlisted byte. -/
def Memory.wfFrom (low : Nat) : Memory → Bool
  | [] => true
  | (k, v) :: m => low ≤ k && v != Config.unlistedByte && Memory.wfFrom (k + 1) m

/-- The canonical form. -/
def Memory.wf (m : Memory) : Bool := Memory.wfFrom 0 m

/-- Every listed index is below `n`: the buffer's valid part. -/
def Memory.below (n : Nat) (m : Memory) : Bool := m.all fun c => c.1 < n

end Sys2Proof.Machine
end

