-- ==== Sys2Proof/Machine/State.lean ====
section
/-! DEFINITION. The architectural state (spec/10_state.md R20), the replies (spec/00_scope.md R10), the reasons a step can
stop, and the state after reset (R45). -/

namespace Sys2Proof.Machine

/-- `DEC_STATUS` (R29). Values 5 to 7 are never produced, so five constructors (spec/93_implementation_defined.md
I34). -/
inductive DecStatus where
  | none
  | ok
  | shortResponse
  | deviceError
  | crcMismatch
deriving DecidableEq, Repr

/-- The reasons of spec/60_exceptions.md R218. -/
inductive RefuseReason where
  | illegalCommand
  | badRegister
  | readOnly
  | txEmpty
  | noData
  | rawRange
deriving DecidableEq, Repr

/-- The reply of a command (spec/00_scope.md R10). -/
inductive Reply where
  | done
  | value (v : Word)
  | bytes (b0 b1 : Byte)
  | ok (n : Nat)
  | err (e : ProtocolError)
  | refused (r : RefuseReason)
deriving DecidableEq, Repr

/-- No instruction of this hardware stops the machine: a protocol error is a reply (R215), so nothing raises a fault and
the type is empty. Safe: no run ends on one. -/
inductive Fault where
deriving DecidableEq, Repr

/-- No instruction of this hardware is refused by the MODEL: the block's own `Refused(reason)` is a reply (R219). -/
inductive Refusal where
  /-- Raised by an arm of exec that has no meaning yet; no arm raises it. Safe: the run stops. -/
  | notModelled (mnemonic : String)
deriving DecidableEq, Repr

/-- The complete architectural state of one block (R20), and two fields of the model's own, the host's queue and the log
of replies (assumption log 1). -/
structure State where
  /-- `CRC_ACC` (R21). -/
  crcAcc : Word
  /-- `TXBUF` (R33), index 0 to 7. -/
  txbuf : Memory
  /-- `TX_PTR` (R25), values 0 to 8. -/
  txPtr : BitVec 4
  /-- `TX_VALID` (R27). -/
  txValid : Bool
  /-- `RXBUF` (R34), valid below `RX_LEN`. -/
  rxbuf : Memory
  /-- `RX_LEN` (R26), values 0 to 260. -/
  rxLen : BitVec 9
  /-- `RX_OVF` (R28), sticky. -/
  rxOvf : Bool
  /-- `CTRL.STRICT_CRC` (R37). -/
  strictCrc : Bool
  /-- `EXPECTED` (R43). -/
  expected : Word
  /-- `DEC_STATUS` (R29). -/
  decStatus : DecStatus
  /-- `RSP_ADDR` (R39). -/
  rspAddr : Byte
  /-- `RSP_FUNC` (R39). -/
  rspFunc : Byte
  /-- `BYTE_COUNT` (R40). -/
  byteCount : Byte
  /-- `REG_COUNT` (R40), values 0 to 127. -/
  regCount : BitVec 7
  /-- `REGS` (R22), exactly `REG_COUNT` entries (R23). -/
  regs : List Word
  /-- `EXC_CODE` (R41). -/
  excCode : Byte
  /-- `MSG_ID` (R41), values 0 to 10. -/
  msgId : BitVec 4
  /-- `CRC_RCVD` (R42). -/
  crcRcvd : Word
  /-- `CRC_CALC` (R42). -/
  crcCalc : Word
  /-- `CRC_OK` (R30). -/
  crcOk : Bool
  /-- `COUNT_OK` (R31). -/
  countOk : Bool
  /-- The model's: what the host has issued and the block has not served, the next first. -/
  inbox : List Input
  /-- The model's: the replies given so far, the latest first. -/
  replies : List Reply
deriving DecidableEq, Repr

/-- The machine right after reset (R45; spec/70_reset_and_hazards.md R241): every value is the spec's. The host's queue
and the log of replies are the model's own and empty. -/
def State.reset : State where
  crcAcc := Config.crcInit
  txbuf := []
  txPtr := 0
  txValid := false
  rxbuf := []
  rxLen := 0
  rxOvf := false
  strictCrc := false
  expected := 0
  decStatus := .none
  rspAddr := 0
  rspFunc := 0
  byteCount := 0
  regCount := 0
  regs := []
  excCode := 0
  msgId := 0
  crcRcvd := 0
  crcCalc := 0
  crcOk := false
  countOk := false
  inbox := []
  replies := []

end Sys2Proof.Machine
end

