-- ==== Sys2Proof/Machine/Flags.lean ====
section
/-! DEFINITION. The flags and the CSR views computed from State: the numbers of DEC_STATUS (spec/10_state.md R29), the
assembly of STATUS (R38), the CSR file (R36), and the two result flags (R30, R31). -/

namespace Sys2Proof.Machine

/-- The number of a result code (R29). -/
def statusCode : DecStatus → BitVec 3
  | .none => 0
  | .ok => 1
  | .shortResponse => 2
  | .deviceError => 3
  | .crcMismatch => 4

/-- The result code of a protocol error (spec/60_exceptions.md R210). -/
def statusOf : ProtocolError → DecStatus
  | .shortResponse => .shortResponse
  | .deviceError _ _ => .deviceError
  | .crcMismatch => .crcMismatch

/-- A flag as a 16-bit number. -/
def flagBit (b : Bool) : Word := if b then 1 else 0

/-- `CTRL` (R37): bit 0 is `STRICT_CRC`, bits 15:1 read 0. -/
def ctrlWord (s : State) : Word := flagBit s.strictCrc

/-- `STATUS` (R38), assembled at the moment of the read. -/
def statusWord (s : State) : Word :=
  flagBit s.txValid
    ||| flagBit s.rxOvf <<< 1
    ||| (statusCode s.decStatus).setWidth 16 <<< 2
    ||| flagBit s.crcOk <<< 5
    ||| flagBit s.countOk <<< 6

/-- `CRC_OK` (R30): equality of the received and the computed CRC (spec/42_decoder.md R159). -/
def crcMatches (rcvd computed : Word) : Bool := rcvd == computed

/-- `COUNT_OK` (R31, spec/42_decoder.md R150 step 7): at least the expected number of registers. -/
def countMeets (n : Nat) (expected : Word) : Bool := decide (expected.toNat ≤ n)

/-- `CSR[r]` (R36) for `r` up to 0x0D, narrower fields zero-extended; none for a number that names no CSR. -/
def csrRead (s : State) (r : Byte) : Option Word :=
  if r = 0x00 then some (ctrlWord s)
  else if r = 0x01 then some (statusWord s)
  else if r = 0x02 then some s.crcAcc
  else if r = 0x03 then some (s.txPtr.setWidth 16)
  else if r = 0x04 then some (s.rxLen.setWidth 16)
  else if r = 0x05 then some (zext16 s.rspAddr)
  else if r = 0x06 then some (zext16 s.rspFunc)
  else if r = 0x07 then some (zext16 s.byteCount)
  else if r = 0x08 then some (s.regCount.setWidth 16)
  else if r = 0x09 then some (zext16 s.excCode)
  else if r = 0x0A then some (s.msgId.setWidth 16)
  else if r = 0x0B then some s.crcRcvd
  else if r = 0x0C then some s.crcCalc
  else if r = 0x0D then some s.expected
  else none

end Sys2Proof.Machine
end

