-- ==== Sys2Proof/Machine/Ops.lean ====
section
/-! DEFINITION. The named operations that the meanings are made of. Each is total on State and ends with a reply
(spec/00_scope.md R10). The block has no exception entry or return; what plays that part is `raise` (a protocol error,
spec/60_exceptions.md R215) and `refuse` (R219), and nothing returns from either (R216). -/

namespace Sys2Proof.Machine

/-! ### Replies -/

/-- End a command with the reply `r`. -/
def State.log (s : State) (r : Reply) : State := { s with replies := r :: s.replies }

/-- `refuse <Reason>` (R9, R219): the reply and no other change. -/
def refuse (r : RefuseReason) (s : State) : State := s.log (.refused r)

/-- `raise <Error>(info)` (R9, R215): the status and the reply; the result fields stay as written so far. -/
def raise (e : ProtocolError) (s : State) : State := { s with decStatus := statusOf e }.log (.err e)

/-! ### Clearing -/

/-- Clear every result field and latch `e` in `EXPECTED` (spec/42_decoder.md R149). -/
def State.clearResults (s : State) (e : Word) : State :=
  { s with
    expected := e, decStatus := .none, rspAddr := 0, rspFunc := 0, byteCount := 0, regCount := 0, regs := [],
    excCode := 0, msgId := 0, crcRcvd := 0, crcCalc := 0, crcOk := false, countOk := false }

/-- Empty the receive buffer (R145). -/
def State.emptyRx (s : State) : State := { s with rxbuf := [], rxLen := 0, rxOvf := false }

/-- The reset of the block's own fields (spec/44_system.md R195, spec/10_state.md R45); the host's queue and its log are
no part of the block. -/
def State.resetBlock (s : State) : State := { State.reset with inbox := s.inbox, replies := s.replies }

/-! ### System registers -/

/-- `SYS.RD` (R196). -/
def sysRead (r : Byte) (s : State) : State :=
  match csrRead s r with
  | some v => s.log (.value v)
  | none => refuse .badRegister s

/-- `SYS.WR` (R197): `BadRegister` is tested before `ReadOnly`; of `v` only bit 0 is stored (R37). -/
def sysWrite (r : Byte) (v : Word) (s : State) : State :=
  if Config.csrMax < r then refuse .badRegister s
  else if r ≠ 0x00 then refuse .readOnly s
  else { s with strictCrc := v.getLsbD 0 }.log .done

/-! ### The CRC accumulator -/

/-- Store a new accumulator value (spec/40_crc.md R112 to R115). -/
def setCrc (a : Word) (s : State) : State := { s with crcAcc := a }.log .done

/-! ### The transmit buffer -/

/-- `ENC.BUILD` (spec/41_encoder.md R130): the frame replaces what `TXBUF` held, pending or not (R133). -/
def txBuild (a f : Byte) (st n : Word) (s : State) : State :=
  { s with txbuf := s.txbuf.writeBytes 0 (buildRequest a f st n), txPtr := 0, txValid := true }.log .done

/-- `TX.POP` (R134, R135). -/
def txTake (s : State) : State :=
  if s.txValid = false then refuse .txEmpty s
  else
    let v := s.txbuf.read s.txPtr.toNat
    let p := s.txPtr + 1
    { s with txPtr := p, txValid := if p = 8 then false else s.txValid }.log (.value (zext16 v))

/-- `TX.POP` repeated `n` times: the pseudo-instruction TX.POPN (spec/30_encoding.md R96). -/
def txTakeN : Nat → State → State
  | 0, s => s
  | n + 1, s => txTakeN n (txTake s)

/-! ### The receive buffer -/

/-- `RX.CLEAR` (spec/42_decoder.md R145). -/
def rxReset (s : State) : State := (s.emptyRx.clearResults 0).log .done

/-- `RX.PUSH` (R146, R147). -/
def rxAppend (b : Byte) (s : State) : State :=
  if s.rxLen.toNat < Config.rxBufBytes then
    { s with rxbuf := s.rxbuf.write s.rxLen.toNat b, rxLen := s.rxLen + 1 }.log .done
  else { s with rxOvf := true }.log .done

/-- One `RX.PUSH` a byte: the pseudo-instruction RX.PUSHN (spec/30_encoding.md R96). -/
def rxAppendAll : List Byte → State → State
  | [], s => s
  | b :: bytes, s => rxAppendAll bytes (rxAppend b s)

/-! ### Parsing (spec/42_decoder.md R150) -/

/-- Step 3 of R150, on a frame whose function code has bit 7 set (R153). -/
def parseError (s : State) : State :=
  let code := s.rxbuf.read 2
  let computed := crc16 (s.rxbuf.readBytes 0 3)
  let rcvd := le16 (s.rxbuf.read 3) (s.rxbuf.read 4)
  raise (.deviceError code (msgString code))
    { s with
      excCode := code, msgId := msgIdOf code, crcCalc := computed, crcRcvd := rcvd, crcOk := crcMatches rcvd computed }

/-- Step 7: the registers are published and counted against `EXPECTED` (R160). -/
def parseOk (s : State) (n : Nat) (regs : List Word) : State :=
  { s with
    regCount := BitVec.ofNat 7 n, regs := regs, countOk := countMeets n s.expected, decStatus := .ok }.log (.ok n)

/-- Steps 5 to 7, on a normal frame of sufficient length with byte count `bc`. -/
def parseJudge (s : State) (bc : Nat) : State :=
  let n := bc / 2
  let regs := (List.range n).map fun k => be16 (s.rxbuf.read (3 + 2 * k)) (s.rxbuf.read (3 + 2 * k + 1))
  let computed := crc16 (s.rxbuf.readBytes 0 (3 + bc))
  let rcvd := le16 (s.rxbuf.read (3 + bc)) (s.rxbuf.read (3 + bc + 1))
  let t := { s with crcCalc := computed, crcRcvd := rcvd, crcOk := crcMatches rcvd computed }
  if t.strictCrc = true ∧ rcvd ≠ computed then raise .crcMismatch t else parseOk t n regs

/-- Steps 4 to 7: the byte count is recorded before the length test, which is on natural numbers (R154, R155). -/
def parseNormal (s : State) : State :=
  let bc := s.rxbuf.read 2
  let t := { s with byteCount := bc }
  if s.rxLen.toNat < 3 + bc.toNat + 2 then raise .shortResponse t else parseJudge t bc.toNat

/-- Steps 2 to 7: address and function code are recorded, bit 7 of the function code selects the format. -/
def parseHeader (s : State) : State :=
  let f := s.rxbuf.read 1
  let t := { s with rspAddr := s.rxbuf.read 0, rspFunc := f }
  if errorBit f then parseError t else parseNormal t

/-- `DEC.PARSE e` (R149, R150). -/
def parse (e : Word) (s : State) : State :=
  let t := s.clearResults e
  if s.rxLen.toNat < Config.rspMinLen then raise .shortResponse t else parseHeader t

/-! ### Reading results -/

/-- `DEC.RDREG` (R165). -/
def readReg (i : Byte) (s : State) : State :=
  if s.decStatus ≠ .ok ∨ s.regCount.toNat ≤ i.toNat then refuse .noData s
  else s.log (.value (s.regs.getD i.toNat 0))

/-- `DEC.RDRAW` (R166). -/
def readRaw (j : Word) (s : State) : State :=
  if s.rxLen.toNat ≤ j.toNat then refuse .rawRange s
  else s.log (.value (zext16 (s.rxbuf.read j.toNat)))

/-! ### Frames on the wire (spec/30_encoding.md R95, last paragraph; assumption log 3) -/

/-- A request frame: the contract `build_request` as commands, `ENC.BUILD` then eight `TX.POP`. -/
def transmit (a f : Byte) (st n : Word) (s : State) : State := txTakeN Config.reqLen (txBuild a f st n s)

/-- A response: the contract `decode_response` as commands, `RX.CLEAR`, one `RX.PUSH` a byte, `DEC.PARSE x`. -/
def receive (x : Word) (bytes : List Byte) (s : State) : State := parse x (rxAppendAll bytes (rxReset s))

/-- The five bytes of an error response (R83). -/
def errorFrame (a f e l h : Byte) : List Byte := [a, f, e, l, h]

/-- The bytes of a normal response (R82). -/
def normalFrame (a f bc : Byte) (payload : List Byte) (l h : Byte) : List Byte :=
  a :: f :: bc :: (payload ++ [l, h])

end Sys2Proof.Machine
end

