-- ==== Sys2Proof/Machine/Crc.lean ====
section
/-! DEFINITION. The CRC commands (spec/40_crc.md): they touch `CRC_ACC` only and are never refused. -/

namespace Sys2Proof.Machine

/-- `CRC.INIT` (R112). -/
def execCrcInit (s : State) : Host.Outcome State Fault Refusal := .next (setCrc Config.crcInit s)

/-- `CRC.XORB b` (R113). -/
def execCrcXorb (b : Byte) (s : State) : Host.Outcome State Fault Refusal := .next (setCrc (s.crcAcc ^^^ zext16 b) s)

/-- `CRC.SHIFT` (R114). -/
def execCrcShift (s : State) : Host.Outcome State Fault Refusal := .next (setCrc (crcShift1 s.crcAcc) s)

/-- `CRC.BYTE b` (R115). -/
def execCrcByte (b : Byte) (s : State) : Host.Outcome State Fault Refusal := .next (setCrc (crcUpdate s.crcAcc b) s)

/-- `CRC.READ` (R116): the accumulator in wire order, not changed. -/
def execCrcRead (s : State) : Host.Outcome State Fault Refusal := .next (s.log (.bytes (lo s.crcAcc) (hi s.crcAcc)))

end Sys2Proof.Machine
end

