-- ==== Sys2Proof/Machine/Decoder.lean ====
section
/-! DEFINITION. The DEC commands (spec/42_decoder.md). -/

namespace Sys2Proof.Machine

/-- `RX.CLEAR` (R145). -/
def execRxClear (s : State) : Host.Outcome State Fault Refusal := .next (rxReset s)

/-- `RX.PUSH b` (R146). -/
def execRxPush (b : Byte) (s : State) : Host.Outcome State Fault Refusal := .next (rxAppend b s)

/-- `DEC.PARSE e` (R150). -/
def execDecParse (e : Word) (s : State) : Host.Outcome State Fault Refusal := .next (parse e s)

/-- `DEC.RDREG i` (R165). -/
def execDecRdreg (i : Byte) (s : State) : Host.Outcome State Fault Refusal := .next (readReg i s)

/-- `DEC.RDRAW j` (R166). -/
def execDecRdraw (j : Word) (s : State) : Host.Outcome State Fault Refusal := .next (readRaw j s)

end Sys2Proof.Machine
end

