-- ==== Sys2Proof/Machine/Encoder.lean ====
section
/-! DEFINITION. The ENC commands (spec/41_encoder.md). -/

namespace Sys2Proof.Machine

/-- `ENC.BUILD a, f, s, n` (R130). -/
def execEncBuild (a f : Byte) (st n : Word) (s : State) : Host.Outcome State Fault Refusal := .next (txBuild a f st n s)

/-- `TX.POP` (R134, R135). -/
def execTxPop (s : State) : Host.Outcome State Fault Refusal := .next (txTake s)

end Sys2Proof.Machine
end

