-- ==== Sys2Proof/Machine/Frames.lean ====
section
/-! DEFINITION. The wire rows of spec/opcode_table.json (spec/30_encoding.md R81 to R83, R86, R92 to R94). R101: they
are no commands. A frame has the meaning of the command sequence that R95 equates with the contract that makes or takes
it; DESIGN CHOICE, assumption log 3. -/

namespace Sys2Proof.Machine

/-- REQ (R81): the frame of these operands is built and sent. The CRC bytes are a function of the other six (R81), so a
frame is sent with the bytes `build_request` gives, which are `l` and `h` on every well-formed instruction (assumption
log 7). -/
def execReq (a f : Byte) (st n : Word) (_l _h : Byte) (s : State) : Host.Outcome State Fault Refusal :=
  .next (transmit a f st n s)

/-- REQ.F03 (R86): a read-holding-registers request. -/
def execReqF03 (a : Byte) (st n : Word) (_l _h : Byte) (s : State) : Host.Outcome State Fault Refusal :=
  .next (transmit a 0x03 st n s)

/-- RSP_N (R82): a normal response is received and parsed. -/
def execRspN (x : Word) (a f bc : Byte) (payload : List Byte) (l h : Byte) (s : State) :
    Host.Outcome State Fault Refusal :=
  .next (receive x (normalFrame a f bc payload l h) s)

/-- RSP_N.F03 (R86): a normal read-holding-registers response. -/
def execRspNF03 (x : Word) (a bc : Byte) (payload : List Byte) (l h : Byte) (s : State) :
    Host.Outcome State Fault Refusal :=
  .next (receive x (normalFrame a 0x03 bc payload l h) s)

/-- RSP_E (R83): an error response is received and parsed. -/
def execRspE (x : Word) (a f e l h : Byte) (s : State) : Host.Outcome State Fault Refusal :=
  .next (receive x (errorFrame a f e l h) s)

/-- RSP_E.F83 (R86): the error variant of read holding registers. -/
def execRspEF83 (x : Word) (a e l h : Byte) (s : State) : Host.Outcome State Fault Refusal :=
  .next (receive x (errorFrame a 0x83 e l h) s)

/-- EXC.01 (R92, R93): an error response with code 0x01, illegal function. -/
def execExc01 (x : Word) (a f l h : Byte) (s : State) : Host.Outcome State Fault Refusal :=
  .next (receive x (errorFrame a f 0x01 l h) s)

/-- EXC.02 (R92, R93): an error response with code 0x02, illegal data address. -/
def execExc02 (x : Word) (a f l h : Byte) (s : State) : Host.Outcome State Fault Refusal :=
  .next (receive x (errorFrame a f 0x02 l h) s)

/-- EXC.03 (R92, R93): an error response with code 0x03, illegal data value. -/
def execExc03 (x : Word) (a f l h : Byte) (s : State) : Host.Outcome State Fault Refusal :=
  .next (receive x (errorFrame a f 0x03 l h) s)

/-- EXC.04 (R92, R93): an error response with code 0x04, slave device failure. -/
def execExc04 (x : Word) (a f l h : Byte) (s : State) : Host.Outcome State Fault Refusal :=
  .next (receive x (errorFrame a f 0x04 l h) s)

/-- EXC.05 (R92, R93): an error response with code 0x05, acknowledge. -/
def execExc05 (x : Word) (a f l h : Byte) (s : State) : Host.Outcome State Fault Refusal :=
  .next (receive x (errorFrame a f 0x05 l h) s)

/-- EXC.06 (R92, R93): an error response with code 0x06, slave device busy. -/
def execExc06 (x : Word) (a f l h : Byte) (s : State) : Host.Outcome State Fault Refusal :=
  .next (receive x (errorFrame a f 0x06 l h) s)

/-- EXC.08 (R92, R93): an error response with code 0x08, memory parity error. -/
def execExc08 (x : Word) (a f l h : Byte) (s : State) : Host.Outcome State Fault Refusal :=
  .next (receive x (errorFrame a f 0x08 l h) s)

/-- EXC.0A (R92, R93): an error response with code 0x0A, gateway path unavailable. -/
def execExc0A (x : Word) (a f l h : Byte) (s : State) : Host.Outcome State Fault Refusal :=
  .next (receive x (errorFrame a f 0x0A l h) s)

/-- EXC.0B (R92, R93): an error response with code 0x0B, gateway target device failed to respond. -/
def execExc0B (x : Word) (a f l h : Byte) (s : State) : Host.Outcome State Fault Refusal :=
  .next (receive x (errorFrame a f 0x0B l h) s)

/-- EXC.UNKNOWN (R94): an error response with a code that R92 does not list. -/
def execExcUnknown (x : Word) (a f e l h : Byte) (s : State) : Host.Outcome State Fault Refusal :=
  .next (receive x (errorFrame a f e l h) s)

end Sys2Proof.Machine
end

