-- ==== Sys2Proof/Machine/System.lean ====
section
/-! DEFINITION. The SYS commands (spec/44_system.md). -/

namespace Sys2Proof.Machine

/-- `SYS.RESET` (R195). -/
def execSysReset (s : State) : Host.Outcome State Fault Refusal := .next (s.resetBlock.log .done)

/-- `SYS.RD r` (R196). -/
def execSysRd (r : Byte) (s : State) : Host.Outcome State Fault Refusal := .next (sysRead r s)

/-- `SYS.WR r, v` (R197). -/
def execSysWr (r : Byte) (v : Word) (s : State) : Host.Outcome State Fault Refusal := .next (sysWrite r v s)

end Sys2Proof.Machine
end

