-- ==== Sys2Proof/Machine/Dispatch.lean ====
section
/-! DEFINITION. The meaning of every instruction, one arm per row of spec/opcode_table.json. -/

namespace Sys2Proof.Machine

def exec (i : Instr) (s : State) : Host.Outcome State Fault Refusal :=
  match i with
  | .sysReset => Sys2Proof.Machine.execSysReset s
  | .sysRd r => Sys2Proof.Machine.execSysRd r s
  | .sysWr r v => Sys2Proof.Machine.execSysWr r v s
  | .crcInit => Sys2Proof.Machine.execCrcInit s
  | .crcXorb b => Sys2Proof.Machine.execCrcXorb b s
  | .crcShift => Sys2Proof.Machine.execCrcShift s
  | .crcByte b => Sys2Proof.Machine.execCrcByte b s
  | .crcRead => Sys2Proof.Machine.execCrcRead s
  | .encBuild a f st n => Sys2Proof.Machine.execEncBuild a f st n s
  | .txPop => Sys2Proof.Machine.execTxPop s
  | .rxClear => Sys2Proof.Machine.execRxClear s
  | .rxPush b => Sys2Proof.Machine.execRxPush b s
  | .decParse e => Sys2Proof.Machine.execDecParse e s
  | .decRdreg k => Sys2Proof.Machine.execDecRdreg k s
  | .decRdraw j => Sys2Proof.Machine.execDecRdraw j s
  | .req a f st n l h => Sys2Proof.Machine.execReq a f st n l h s
  | .reqF03 a st n l h => Sys2Proof.Machine.execReqF03 a st n l h s
  | .rspN x a f bc payload l h => Sys2Proof.Machine.execRspN x a f bc payload l h s
  | .rspNF03 x a bc payload l h => Sys2Proof.Machine.execRspNF03 x a bc payload l h s
  | .rspE x a f e l h => Sys2Proof.Machine.execRspE x a f e l h s
  | .rspEF83 x a e l h => Sys2Proof.Machine.execRspEF83 x a e l h s
  | .exc01 x a f l h => Sys2Proof.Machine.execExc01 x a f l h s
  | .exc02 x a f l h => Sys2Proof.Machine.execExc02 x a f l h s
  | .exc03 x a f l h => Sys2Proof.Machine.execExc03 x a f l h s
  | .exc04 x a f l h => Sys2Proof.Machine.execExc04 x a f l h s
  | .exc05 x a f l h => Sys2Proof.Machine.execExc05 x a f l h s
  | .exc06 x a f l h => Sys2Proof.Machine.execExc06 x a f l h s
  | .exc08 x a f l h => Sys2Proof.Machine.execExc08 x a f l h s
  | .exc0A x a f l h => Sys2Proof.Machine.execExc0A x a f l h s
  | .exc0B x a f l h => Sys2Proof.Machine.execExc0B x a f l h s
  | .excUnknown x a f e l h => Sys2Proof.Machine.execExcUnknown x a f e l h s

end Sys2Proof.Machine
end

