-- ==== Sys2Proof/Machine/Port.lean ====
section
/-! DEFINITION. Serving one input of the host (spec/00_scope.md R10, R11), and running a list of instructions. -/

namespace Sys2Proof.Machine

/-- What the block does with one input: an instruction is executed; a command word that is no command is refused
`IllegalCommand` with no other effect (spec/30_encoding.md R99); response bytes that are not exactly one frame are
received and parsed all the same, for `DEC.PARSE` is total on every buffer (spec/42_decoder.md R150, R168; assumption
log 14). -/
def serve (x : Input) (s : State) : Host.Outcome State Fault Refusal :=
  match decode x with
  | .ok i => exec i s
  | .error .illegalCommand => .next (refuse .illegalCommand s)
  | .error (.notOneFrame e bytes) => .next (receive e bytes s)

/-- Execute the instructions of a straight list, in order (spec/30_encoding.md R96: "a program is a straight list"). -/
def execAll : List Instr → State → Host.Outcome State Fault Refusal
  | [], s => .next s
  | i :: is, s =>
    match exec i s with
    | .next t => execAll is t
    | .fault r => .fault r
    | .refused r => .refused r

end Sys2Proof.Machine
end

