-- ==== Sys2Proof/Machine/Step.lean ====
section
/-! DEFINITION. One step: the next input of the host is served whole (spec/00_scope.md R10, R11). -/

namespace Sys2Proof.Machine

/-- Serve the host's next input. With none issued the block is idle and its state survives
(spec/60_exceptions.md R228; assumption log 1). -/
def step (s : State) : Host.Outcome State Fault Refusal :=
  match s.inbox with
  | [] => .next s
  | x :: rest => serve x { s with inbox := rest }

/-- The host issues an input that is served before everything it has issued so far. -/
def State.withInput (s : State) (x : Input) : State := { s with inbox := x :: s.inbox }

/-- The bits `w` of a row of spec/opcode_table.json, issued so that the very next step serves them. -/
def State.withFetchWord (s : State) (nbits w : Nat) : State := s.withInput (tableInput nbits w)

end Sys2Proof.Machine
end

