-- ==== Sys2Proof/Machine/HostProfiles.lean ====
section
/-! DEFINITION. The host's pseudo-operations (spec/43_host_profiles.md). They are software that uses the block and add no
state to it (R6, R180); the transport is an input (R222). Scaled values are exact tenths (R185; assumption log 11). -/

namespace Sys2Proof.Machine

/-- The transport's errors (spec/60_exceptions.md R222). -/
inductive TransportError where
  | timeout
  | connectionClosed
  | ioError
deriving DecidableEq, Repr

/-- What the host's `receive` gives (R180): the bytes of a response or the transport's error. -/
inductive Received where
  | bytes (raw : List Byte)
  | failed (e : TransportError)
deriving DecidableEq, Repr

/-- How a poll ends for the host (R180, R187 to R189). -/
inductive PollResult where
  | registers (regs : List Word)
  | transport (e : TransportError)
  | protocol (e : ProtocolError)
  /-- Fewer registers than asked for: the document names no error for it (R187; DESIGN CHOICE of the name). -/
  | tooFew
deriving DecidableEq, Repr

/-- The host's reading of registers 0 to `n - 1` with `DEC.RDREG`, the values in order; a refused read gives none. -/
def readRegs : Nat → Nat → State → State × Option (List Word)
  | _, 0, s => (s, some [])
  | k, n + 1, s =>
    let t := readReg (BitVec.ofNat 8 k) s
    match t.replies with
    | .value v :: _ =>
      let r := readRegs (k + 1) n t
      (r.1, r.2.map (v :: ·))
    | _ => (t, none)

/-- `POLL(a, s, n)` (R180): build and send, clear, receive, push and parse, check the count, read the registers. -/
def poll (a : Byte) (st n : Word) (received : Received) (s : State) : State × PollResult :=
  let sent := rxReset (transmit a 0x03 st n s)
  match received with
  | .failed e => (sent, .transport e)
  | .bytes raw =>
    let parsed := parse n (rxAppendAll raw sent)
    match parsed.replies with
    | .err e :: _ => (parsed, .protocol e)
    | _ =>
      if parsed.countOk then
        let r := readRegs 0 n.toNat parsed
        match r.2 with
        | some regs => (r.1, .registers regs)
        | none => (r.1, .tooFew)
      else (parsed, .tooFew)

/-- A channel of the 8-channel read (R182): the sentinel, or a temperature in tenths. -/
inductive Channel where
  | disconnected
  | temperature (tenths : Nat)
deriving DecidableEq, Repr

/-- The sentinel value (R13, R182). -/
def sentinel : Word := 0x5555

/-- A scaled reading (R185): the exact number of tenths, unsigned. -/
def tenths (raw : Word) : Nat := raw.toNat

/-- The decoding of one channel (R182): the comparison is with the whole raw value, before scaling. -/
def channelOf (raw : Word) : Channel := if raw = sentinel then .disconnected else .temperature (tenths raw)

/-- The three profile reads with their fixed parameters (R184). -/
inductive Profile where
  | env
  | ch8
  | th
deriving DecidableEq, Repr

/-- The start register of a profile (R184). -/
def profileStart : Profile → Word
  | .env => 0x0001
  | .ch8 => 0x0002
  | .th => 0x0000

/-- The register count of a profile (R184). -/
def profileCount : Profile → Word
  | .env => 1
  | .ch8 => 8
  | .th => 2

/-- What a profile returns to its caller. -/
inductive Reading where
  /-- `POLL.ENV` (R181): whole degrees, not divided by 10. -/
  | env (degrees : Nat)
  /-- `POLL.CH8` (R182). -/
  | channels (c : List Channel)
  /-- `POLL.TH` (R183): temperature and humidity in tenths; no sentinel. -/
  | pair (temperature humidity : Nat)
  | failed (r : PollResult)
deriving DecidableEq, Repr

/-- The decoding rule of a profile (R181 to R183). -/
def readingOf : Profile → PollResult → Reading
  | .env, .registers (r :: _) => .env r.toNat
  | .ch8, .registers regs => .channels (regs.map channelOf)
  | .th, .registers (t :: h :: _) => .pair (tenths t) (tenths h)
  | _, r => .failed r

/-- `POLL.ENV a`, `POLL.CH8 a`, `POLL.TH a` (R181 to R184). -/
def pollProfile (p : Profile) (a : Byte) (received : Received) (s : State) : State × Reading :=
  let r := poll a (profileStart p) (profileCount p) received s
  (r.1, readingOf p r.2)

end Sys2Proof.Machine
end

