-- ==== Sys2Proof/Safety.lean ====
section
/-! DEFINITION. What holds of every state a run reaches (the rules of spec/10_state.md that relate fields), and what two
states a host cannot tell apart have in common (spec/00_scope.md R16, spec/10_state.md R44). -/

namespace Sys2Proof.Machine

/-- The transmit side (spec/41_encoder.md R134): a pending frame has its pointer at 0 to 7; else the pointer is 0 or 8.
Only indices 0 to 7 of TXBUF exist (R33). -/
structure TxInv (s : State) : Prop where
  pending : s.txValid = true → s.txPtr.toNat ≤ 7
  idle : s.txValid = false → s.txPtr = 0 ∨ s.txPtr = 8
  canonical : s.txbuf.wf = true
  bounded : s.txbuf.below 8 = true

/-- The receive side (R26, R28, R34): at most 260 bytes, nothing stored beyond them, overflow only when full. -/
structure RxInv (s : State) : Prop where
  length : s.rxLen.toNat ≤ Config.rxBufBytes
  full : s.rxOvf = true → s.rxLen.toNat = Config.rxBufBytes
  canonical : s.rxbuf.wf = true
  bounded : s.rxbuf.below s.rxLen.toNat = true

/-- The result fields (R23, R30 to R32, R40, R41). -/
structure ResultInv (s : State) : Prop where
  entries : s.regs.length = s.regCount.toNat
  regsOnlyOk : s.decStatus ≠ .ok → s.regCount = 0
  halfCount : s.decStatus = .ok → s.regCount.toNat = s.byteCount.toNat / 2
  countOk : s.countOk = true ↔ s.decStatus = .ok ∧ s.expected.toNat ≤ s.regCount.toNat
  crcOk : s.crcOk = true ↔
    (s.decStatus = .ok ∨ s.decStatus = .deviceError ∨ s.decStatus = .crcMismatch) ∧ s.crcRcvd = s.crcCalc
  mismatch : s.decStatus = .crcMismatch → s.crcOk = false
  noCrc : s.decStatus = .none ∨ s.decStatus = .shortResponse → s.crcRcvd = 0 ∧ s.crcCalc = 0
  byteCount : s.decStatus = .none ∨ s.decStatus = .deviceError → s.byteCount = 0
  device : s.decStatus = .deviceError → s.msgId = msgIdOf s.excCode ∧ errorBit s.rspFunc = true
  noDevice : s.decStatus ≠ .deviceError → s.excCode = 0 ∧ s.msgId = 0 ∧ errorBit s.rspFunc = false
  untouched : s.decStatus = .none → s.rspAddr = 0 ∧ s.rspFunc = 0

/-- The invariant of the block. -/
structure Inv (s : State) : Prop where
  tx : TxInv s
  rx : RxInv s
  result : ResultInv s

/-- The state a host can read at all: every field but the storage behind the buffers and REGS, which counts only where
it can be read (R23, R33, R34). -/
structure SameView (s t : State) : Prop where
  crcAcc : s.crcAcc = t.crcAcc
  txPtr : s.txPtr = t.txPtr
  txValid : s.txValid = t.txValid
  txbuf : s.txValid = true → ∀ a, s.txPtr.toNat ≤ a → a < 8 → s.txbuf.read a = t.txbuf.read a
  rxLen : s.rxLen = t.rxLen
  rxOvf : s.rxOvf = t.rxOvf
  rxbuf : ∀ a, a < s.rxLen.toNat → s.rxbuf.read a = t.rxbuf.read a
  strictCrc : s.strictCrc = t.strictCrc
  expected : s.expected = t.expected
  decStatus : s.decStatus = t.decStatus
  rspAddr : s.rspAddr = t.rspAddr
  rspFunc : s.rspFunc = t.rspFunc
  byteCount : s.byteCount = t.byteCount
  regCount : s.regCount = t.regCount
  regs : ∀ k, k < s.regCount.toNat → s.regs.getD k 0 = t.regs.getD k 0
  excCode : s.excCode = t.excCode
  msgId : s.msgId = t.msgId
  crcRcvd : s.crcRcvd = t.crcRcvd
  crcCalc : s.crcCalc = t.crcCalc
  crcOk : s.crcOk = t.crcOk
  countOk : s.countOk = t.countOk
  inbox : s.inbox = t.inbox
  replies : s.replies = t.replies

/-- The operands of a request row: address, function code, start register, count (spec/30_encoding.md R81, R86). -/
def requestOf : Instr → Option (Byte × Byte × Word × Word)
  | .req a f st n _ _ => some (a, f, st, n)
  | .reqF03 a st n _ _ => some (a, 0x03, st, n)
  | _ => none

/-- The expected count and the frame of a response row (R82, R83, R86, R92 to R94). -/
def responseOf : Instr → Option (Word × List Byte)
  | .rspN x a f bc payload l h => some (x, normalFrame a f bc payload l h)
  | .rspNF03 x a bc payload l h => some (x, normalFrame a 0x03 bc payload l h)
  | .rspE x a f e l h => some (x, errorFrame a f e l h)
  | .rspEF83 x a e l h => some (x, errorFrame a 0x83 e l h)
  | .exc01 x a f l h => some (x, errorFrame a f 0x01 l h)
  | .exc02 x a f l h => some (x, errorFrame a f 0x02 l h)
  | .exc03 x a f l h => some (x, errorFrame a f 0x03 l h)
  | .exc04 x a f l h => some (x, errorFrame a f 0x04 l h)
  | .exc05 x a f l h => some (x, errorFrame a f 0x05 l h)
  | .exc06 x a f l h => some (x, errorFrame a f 0x06 l h)
  | .exc08 x a f l h => some (x, errorFrame a f 0x08 l h)
  | .exc0A x a f l h => some (x, errorFrame a f 0x0A l h)
  | .exc0B x a f l h => some (x, errorFrame a f 0x0B l h)
  | .excUnknown x a f e l h => some (x, errorFrame a f e l h)
  | _ => none

/-- The commands of the CRC unit that write `CRC_ACC`, and reset (spec/10_state.md R20). -/
def writesCrc : Instr → Bool
  | .sysReset | .crcInit | .crcXorb _ | .crcShift | .crcByte _ => true
  | _ => false

/-- What writes the transmit side (R20): `ENC.BUILD`, `TX.POP`, reset, and the request rows made of them. -/
def writesTx (i : Instr) : Bool :=
  match i with
  | .sysReset | .encBuild _ _ _ _ | .txPop => true
  | _ => (requestOf i).isSome

/-- What writes the receive buffer (R20): `RX.PUSH`, `RX.CLEAR`, reset, and the response rows made of them. -/
def writesRx (i : Instr) : Bool :=
  match i with
  | .sysReset | .rxClear | .rxPush _ => true
  | _ => (responseOf i).isSome

/-- What writes the result fields (R20): `DEC.PARSE`, `RX.CLEAR`, reset, and the response rows made of them. -/
def writesResults (i : Instr) : Bool :=
  match i with
  | .sysReset | .rxClear | .decParse _ => true
  | _ => (responseOf i).isSome

/-- What writes `CTRL` (R20). -/
def writesCtrl : Instr → Bool
  | .sysReset | .sysWr _ _ => true
  | _ => false

/-- The byte that a `CRC.BYTE` absorbs. -/
def absorbed : Instr → Option Byte
  | .crcByte b => some b
  | _ => none

/-- A step completes: it answers a next state (spec/70_reset_and_hazards.md R256). -/
def Completes (o : Host.Outcome State Fault Refusal) : Prop := ∃ t, o = .next t

end Sys2Proof.Machine
end

