-- ==== Sys2Proof/Certificates/Slice0/Obligations.lean ====
section
/-! DEFINITION. The statements for the provers, taken from the numbered rules of spec/. A result is written as a record
update of the state before, so that everything not named in it is unchanged. -/

open Sys2Proof Sys2Proof.Machine

/-! ### Encodings -/

/-- R97, R98, R81 to R83: decoding an encoded well-formed instruction gives it back, for every operand. -/
def Obligations.DecodeEncodeRoundTrip : Prop :=
  ∀ i : Instr, WellFormed i → decode (encode i) = .ok i

/-- R98 to R100, R81 to R84: an input has at most one reading; encoding what was decoded gives the input back. -/
def Obligations.EncodeDecodeRoundTrip : Prop :=
  ∀ (x : Input) (i : Instr), decode x = .ok i → encode i = x

/-- R98: a word is a command exactly when it matches a row of the opcode map, and then that row's command. -/
def Obligations.CommandDecodeFollowsOpcodeMap : Prop :=
  ∀ (w : Word64) (row : CommandRow), row ∈ commandTable →
    (row.matches w ↔ ∃ i, decode (.command w) = .ok i ∧ commandMnemonic i = some row.mnemonic)

/-- R98: no two rows of the opcode map match the same word. -/
def Obligations.OpcodeMapRowsNeverOverlap : Prop :=
  ∀ (w : Word64) (r1 r2 : CommandRow), r1 ∈ commandTable → r2 ∈ commandTable → r1.matches w → r2.matches w → r1 = r2

/-- R97 to R99, R81 to R83, R101: words written out from the tables of the spec, one of each command format and one with
a reserved bit set, and a frame of each wire format. Each of the three frames matches several rows; that the rows named
are REQ.F03, RSP_N.F03 and EXC.02 is the model's choice (assumption log 5), and so is the operand 1 of the two response
rows, the host's expected count (assumption log 4). -/
def Obligations.WordsOfTheSpecDecode : Prop :=
  decode (.command 0x1000000000000000) = .ok .crcInit ∧
  decode (.command 0x31FA000000000000) = .ok (.rxPush 0xFA) ∧
  decode (.command 0x3200080000000000) = .ok (.decParse 8) ∧
  decode (.command 0x0300FFFE00000000) = .ok (.sysWr 0x00 0xFFFE) ∧
  decode (.command 0x2001030001000100) = .ok (.encBuild 0x01 0x03 0x0001 0x0001) ∧
  decode (.command 0x2001030001000101) = .error .illegalCommand ∧
  decode (.request 0x010300010001D5CA) = .ok (.reqF03 0x01 0x0001 0x0001 0xD5 0xCA) ∧
  decode (.response 1 [0x01, 0x03, 0x02, 0x00, 0xFA, 0x38, 0x07]) = .ok (.rspNF03 1 0x01 0x02 [0x00, 0xFA] 0x38 0x07) ∧
  decode (.response 1 [0x01, 0x83, 0x02, 0xC0, 0xF1]) = .ok (.exc02 1 0x01 0x83 0xC0 0xF1)

/-- R97: bits 55:8 of the ENC.BUILD word are, byte for byte, the first six bytes of the frame the command stores. -/
def Obligations.BuildWordHoldsTheRequestHeader : Prop :=
  ∀ (a f : Byte) (st n : Word) (s : State), ∃ (w : Word64) (t : State),
    encode (.encBuild a f st n) = .command w ∧ exec (.encBuild a f st n) s = .next t ∧
    ∀ k, k < 6 → t.txbuf.read k = w.extractLsb' (48 - 8 * k) 8

/-! ### Steps -/

/-- R10, R11: the next input is served; when it decodes to an instruction, the step is that instruction's execution on
the state without the input. -/
def Obligations.StepRunsTheDecodedInstruction : Prop :=
  ∀ (s : State) (x : Input) (rest : List Input) (i : Instr),
    s.inbox = x :: rest → decode x = .ok i → step s = exec i { s with inbox := rest }

/-- R99, R219: a word that matches no row of the opcode map is refused `IllegalCommand` and changes nothing else. -/
def Obligations.IllegalWordIsRefused : Prop :=
  ∀ (s : State) (w : Word64) (rest : List Input),
    s.inbox = .command w :: rest → (∀ row ∈ commandTable, ¬ row.matches w) →
    step s = .next { s with inbox := rest, replies := .refused .illegalCommand :: s.replies }

/-- R10: a command word is served whole in one step and gets exactly one reply. -/
def Obligations.OneCommandOneReply : Prop :=
  ∀ (s : State) (w : Word64) (rest : List Input), s.inbox = .command w :: rest →
    ∃ (t : State) (r : Reply), step s = .next t ∧ t.inbox = rest ∧ t.replies = r :: s.replies

/-- R256: every step completes. With no input the block is idle (R228, assumption log 1). -/
def Obligations.EveryStepCompletes : Prop :=
  ∀ s : State, Completes (step s) ∧ (s.inbox = [] → step s = .next s)

/-! ### Reset -/

/-- R45, R241: the value of every element after reset; and no byte of either buffer and no register can be read, for
every such read is refused. -/
def Obligations.ResetValues : Prop :=
  (State.reset.crcAcc = 0xFFFF ∧ State.reset.txPtr = 0 ∧ State.reset.txValid = false ∧ State.reset.rxLen = 0 ∧
  State.reset.rxOvf = false ∧ ctrlWord State.reset = 0x0000 ∧ State.reset.expected = 0 ∧
  State.reset.decStatus = .none ∧ State.reset.rspAddr = 0 ∧ State.reset.rspFunc = 0 ∧ State.reset.byteCount = 0 ∧
  State.reset.regCount = 0 ∧ State.reset.excCode = 0 ∧ State.reset.msgId = 0 ∧ State.reset.crcRcvd = 0 ∧
  State.reset.crcCalc = 0 ∧ State.reset.crcOk = false ∧ State.reset.countOk = false ∧ State.reset.regs = [] ∧
  statusWord State.reset = 0x0000) ∧
  exec .txPop State.reset = .next { State.reset with replies := [.refused .txEmpty] } ∧
  (∀ j : Word, exec (.decRdraw j) State.reset = .next { State.reset with replies := [.refused .rawRange] }) ∧
  (∀ i : Byte, exec (.decRdreg i) State.reset = .next { State.reset with replies := [.refused .noData] })

/-- R195, R240: SYS.RESET puts every element of the block at its reset value, whatever it was, and replies `Done`. What
the storage of the two buffers then holds cannot be read and is left open here. -/
def Obligations.ResetCommandRestoresReset : Prop :=
  ∀ s : State, ∃ t, exec .sysReset s = .next t ∧ t = { State.reset with
    txbuf := t.txbuf, rxbuf := t.rxbuf, inbox := s.inbox, replies := .done :: s.replies }

/-- The reset state satisfies the invariant of StepKeepsInvariant. -/
def Obligations.ResetSatisfiesInvariant : Prop := Inv State.reset

/-- R23, R26, R28, R30 to R32, R134: the relations between the fields hold after every step from a state in which they
hold. -/
def Obligations.StepKeepsInvariant : Prop :=
  ∀ s t : State, Inv s → step s = .next t → Inv t

/-! ### System registers -/

/-- R36, R196: SYS.RD of each of the fourteen numbers replies that register, zero-extended; of any other number it is
refused; no read changes state. -/
def Obligations.SysRdFollowsTheCsrFile : Prop :=
  ∀ (r : Byte) (s : State),
    let file : List Word := [(if s.strictCrc then 1 else 0), statusWord s, s.crcAcc, s.txPtr.setWidth 16,
      s.rxLen.setWidth 16, s.rspAddr.setWidth 16, s.rspFunc.setWidth 16, s.byteCount.setWidth 16,
      s.regCount.setWidth 16, s.excCode.setWidth 16, s.msgId.setWidth 16, s.crcRcvd, s.crcCalc, s.expected]
    (0x0D < r → exec (.sysRd r) s = .next { s with replies := .refused .badRegister :: s.replies }) ∧
    (r ≤ 0x0D → exec (.sysRd r) s = .next { s with replies := .value (file.getD r.toNat 0) :: s.replies })

/-- R38, R29: the bits of STATUS, read by SYS.RD 0x01, with the number of each outcome in bits 4:2; 5 to 7 never
appear. -/
def Obligations.StatusRegisterLayout : Prop :=
  ∀ s : State, ∃ v : Word,
    exec (.sysRd 0x01) s = .next { s with replies := .value v :: s.replies } ∧
    v.getLsbD 0 = s.txValid ∧ v.getLsbD 1 = s.rxOvf ∧
    (s.decStatus = .none ↔ v.extractLsb' 2 3 = 0) ∧
    (s.decStatus = .ok ↔ v.extractLsb' 2 3 = 1) ∧
    (s.decStatus = .shortResponse ↔ v.extractLsb' 2 3 = 2) ∧
    (s.decStatus = .deviceError ↔ v.extractLsb' 2 3 = 3) ∧
    (s.decStatus = .crcMismatch ↔ v.extractLsb' 2 3 = 4) ∧
    (v.extractLsb' 2 3).toNat ≤ 4 ∧
    v.getLsbD 5 = s.crcOk ∧ v.getLsbD 6 = s.countOk ∧ v.extractLsb' 7 9 = 0

/-- R197: only CTRL is writable and only bit 0 of it is stored; the other CSR numbers are ReadOnly, the rest BadRegister,
and a refused write changes nothing. -/
def Obligations.SysWrWritesStrictCrcOnly : Prop :=
  ∀ (r : Byte) (v : Word) (s : State),
    (0x0D < r → exec (.sysWr r v) s = .next { s with replies := .refused .badRegister :: s.replies }) ∧
    (0x00 < r → r ≤ 0x0D → exec (.sysWr r v) s = .next { s with replies := .refused .readOnly :: s.replies }) ∧
    (r = 0x00 → exec (.sysWr r v) s = .next { s with strictCrc := v.getLsbD 0, replies := .done :: s.replies })

/-- R37: what was written to CTRL reads back as its bit 0; bits 15:1 read 0. -/
def Obligations.CtrlReadsBackBitZero : Prop :=
  ∀ (v : Word) (s : State), execAll [.sysWr 0x00 v, .sysRd 0x00] s =
    .next { s with strictCrc := v.getLsbD 0, replies := .value (v &&& 0x0001) :: .done :: s.replies }

/-- R37, R20: CTRL changes by SYS.WR and by reset only. -/
def Obligations.OnlySysWrAndResetChangeCtrl : Prop :=
  ∀ (i : Instr) (s : State), writesCtrl i = false → ∃ t, exec i s = .next t ∧ t.strictCrc = s.strictCrc

/-! ### The CRC unit -/

/-- R110: the serial step bit by bit, with `t = a[0]`. -/
def Obligations.CrcShiftBitByBit : Prop :=
  ∀ a : Word,
    (crcShift1 a).getLsbD 15 = a.getLsbD 0 ∧ (crcShift1 a).getLsbD 14 = a.getLsbD 15 ∧
    (crcShift1 a).getLsbD 13 = (a.getLsbD 14 ^^ a.getLsbD 0) ∧
    (∀ i, 1 ≤ i → i ≤ 12 → (crcShift1 a).getLsbD i = a.getLsbD (i + 1)) ∧
    (crcShift1 a).getLsbD 0 = (a.getLsbD 1 ^^ a.getLsbD 0)

/-- R112 to R116: the effect of the five CRC commands: the accumulator as the rule says, the reply, and nothing else. -/
def Obligations.CrcCommandsTouchOnlyTheAccumulator : Prop :=
  ∀ (s : State) (b : Byte),
    exec .crcInit s = .next { s with crcAcc := 0xFFFF, replies := .done :: s.replies } ∧
    exec (.crcXorb b) s = .next { s with crcAcc := s.crcAcc ^^^ b.setWidth 16, replies := .done :: s.replies } ∧
    exec .crcShift s = .next { s with crcAcc := crcShift1 s.crcAcc, replies := .done :: s.replies } ∧
    exec (.crcByte b) s = .next { s with crcAcc := crcUpdate s.crcAcc b, replies := .done :: s.replies } ∧
    exec .crcRead s = .next (s.log (.bytes (s.crcAcc.extractLsb' 0 8) (s.crcAcc.extractLsb' 8 8)))

/-- R115: CRC.BYTE leaves what CRC.XORB followed by eight CRC.SHIFT leaves, but for the number of replies. -/
def Obligations.CrcByteIsXorbAndEightShifts : Prop :=
  ∀ (b : Byte) (s : State), ∃ t u : State,
    exec (.crcByte b) s = .next t ∧ execAll (.crcXorb b :: List.replicate 8 .crcShift) s = .next u ∧
    { t with replies := s.replies } = { u with replies := s.replies }

/-- R118: after CRC.INIT and a program with no other CRC command than CRC.BYTE and CRC.READ and no reset, the accumulator
is `crc16` of the bytes absorbed, in order, whatever other commands stand between. -/
def Obligations.CrcCommandsComputeCrc16 : Prop :=
  ∀ (p : List Instr) (s : State), (∀ i ∈ p, writesCrc i = false ∨ (absorbed i).isSome) →
    ∃ t, execAll (.crcInit :: p) s = .next t ∧ t.crcAcc = crc16 (p.filterMap absorbed)

/-- R120, R159: two bytes bring the CRC of a sequence to 0 exactly when they are its CRC, low byte first. -/
def Obligations.ResidueIdentifiesTheCrcBytes : Prop :=
  ∀ (d : List Byte) (x y : Byte), crc16 (d ++ [x, y]) = 0x0000 ↔ le16 x y = crc16 d

/-- R117, R121: the values of `crc16` that the rules print. -/
def Obligations.CrcReferenceValues : Prop :=
  crc16 [] = 0xFFFF ∧ crc16 [0x01, 0x03, 0x00, 0x01, 0x00, 0x01] = 0xCAD5 ∧
  crc16 [0x31, 0x32, 0x33, 0x34, 0x35, 0x36, 0x37, 0x38, 0x39] = 0x4B37

/-- R21: nothing but the CRC commands and reset changes the accumulator. -/
def Obligations.CrcAccumulatorIsPrivate : Prop :=
  ∀ (i : Instr) (s : State), writesCrc i = false → ∃ t, exec i s = .next t ∧ t.crcAcc = s.crcAcc

/-! ### The encoder -/

/-- R130, R131, R133: ENC.BUILD on every state and every operand, a frame pending or not: the eight bytes, the pointer,
the flag, and nothing else. -/
def Obligations.EncBuildStoresTheFrame : Prop :=
  ∀ (a f : Byte) (st n : Word) (s : State), ∃ t,
    exec (.encBuild a f st n) s = .next t ∧
    t = { s with txbuf := t.txbuf, txPtr := 0, txValid := true, replies := .done :: s.replies } ∧
    t.txbuf.readBytes 0 8 = buildRequest a f st n ∧
    ∀ k, 8 ≤ k → t.txbuf.read k = s.txbuf.read k

/-- R137: the properties of every request frame. -/
def Obligations.RequestFrameProperties : Prop :=
  ∀ (a f : Byte) (st n : Word), ∃ s1 s0 n1 n0 l h : Byte,
    buildRequest a f st n = [a, f, s1, s0, n1, n0, l, h] ∧ be16 s1 s0 = st ∧ be16 n1 n0 = n ∧
    le16 l h = crc16 [a, f, s1, s0, n1, n0] ∧ crc16 (buildRequest a f st n) = 0x0000 ∧
    ∀ (a' f' : Byte) (st' n' : Word), buildRequest a' f' st' n' = buildRequest a f st n →
      a' = a ∧ f' = f ∧ st' = st ∧ n' = n

/-- R134, R135: TX.POP with a frame pending, and with none. -/
def Obligations.TxPopHandsOutOneByte : Prop :=
  ∀ s : State,
    (s.txValid = true → exec .txPop s = .next { s with
      txPtr := s.txPtr + 1, txValid := decide (s.txPtr + 1 ≠ 8),
      replies := .value ((s.txbuf.read s.txPtr.toNat).setWidth 16) :: s.replies }) ∧
    (s.txValid = false → exec .txPop s = .next { s with replies := .refused .txEmpty :: s.replies })

/-- R136: after ENC.BUILD the next TX.POPs, with any commands between that do not write the transmit side, reply the
bytes of the frame in order; a ninth is refused. `gaps` holds what the host issues before each TX.POP. -/
def Obligations.EightPopsDeliverTheRequest : Prop :=
  ∀ (a f : Byte) (st n : Word) (s : State) (gaps : List (List Instr)),
    (∀ g ∈ gaps, ∀ i ∈ g, writesTx i = false) → 1 ≤ gaps.length → gaps.length ≤ 9 →
    ∃ t, execAll (.encBuild a f st n :: gaps.flatMap (fun g => g ++ [.txPop])) s = .next t ∧
      t.replies.head? = some (if gaps.length ≤ 8 then
        .value (((buildRequest a f st n).getD (gaps.length - 1) 0).setWidth 16) else .refused .txEmpty)

/-! ### The receive buffer -/

/-- R145: RX.CLEAR empties the receive buffer and clears every result field; it touches nothing else. What the storage
of the buffer then holds cannot be read and is left open here. -/
def Obligations.RxClearForgetsResponseAndResults : Prop :=
  ∀ s : State, ∃ t, exec .rxClear s = .next t ∧ t = { s with
    rxbuf := t.rxbuf, rxLen := 0, rxOvf := false, expected := 0, decStatus := .none, rspAddr := 0, rspFunc := 0,
    byteCount := 0, regCount := 0, regs := [], excCode := 0, msgId := 0, crcRcvd := 0, crcCalc := 0,
    crcOk := false, countOk := false, replies := .done :: s.replies }

/-- R146, R147: RX.PUSH below 260 stores the byte at RX_LEN and nowhere else; at 260 and above it drops the byte and sets
RX_OVF. -/
def Obligations.RxPushAppendsOrOverflows : Prop :=
  ∀ (b : Byte) (s : State), ∃ t, exec (.rxPush b) s = .next t ∧
    (s.rxLen.toNat < 260 →
      t = { s with rxbuf := t.rxbuf, rxLen := s.rxLen + 1, replies := .done :: s.replies } ∧
      t.rxLen.toNat = s.rxLen.toNat + 1 ∧
      ∀ a, t.rxbuf.read a = if a = s.rxLen.toNat then b else s.rxbuf.read a) ∧
    (260 ≤ s.rxLen.toNat → t = { s with rxOvf := true, replies := .done :: s.replies })

/-- R26, R28, R147: RX.CLEAR and one RX.PUSH a byte load the first 260 bytes, in order; RX_OVF tells that there were
more. -/
def Obligations.RxLoadHoldsTheBytes : Prop :=
  ∀ (raw : List Byte) (s : State), ∃ t, execAll (.rxClear :: raw.map .rxPush) s = .next t ∧
    t.rxLen.toNat = min raw.length 260 ∧ t.rxbuf.readBytes 0 t.rxLen.toNat = raw.take 260 ∧
    t.rxOvf = decide (260 < raw.length)

/-- R28: RX_OVF, once set, stays set but for RX.CLEAR, reset and the response frames that begin with RX.CLEAR. -/
def Obligations.OverflowIsSticky : Prop :=
  ∀ (i : Instr) (s : State), s.rxOvf = true → i ≠ .rxClear → i ≠ .sysReset → responseOf i = none →
    ∃ t, exec i s = .next t ∧ t.rxOvf = true

/-! ### Parsing -/

/-- R161: DEC.PARSE computes `decode_response` of the bytes in RXBUF: it replies the number of registers and leaves them
in REGS, or replies the error and leaves REGS empty. -/
def Obligations.ParseRefinesDecodeResponse : Prop :=
  ∀ (e : Word) (s : State), ∃ t, exec (.decParse e) s = .next t ∧
    (∀ regs, decodeResponse (s.rxbuf.readBytes 0 s.rxLen.toNat) s.strictCrc = .ok regs →
      t.replies = .ok regs.length :: s.replies ∧ t.regs = regs ∧ t.regCount.toNat = regs.length) ∧
    (∀ x, decodeResponse (s.rxbuf.readBytes 0 s.rxLen.toNat) s.strictCrc = .error x →
      t.replies = .err x :: s.replies ∧ t.regs = [] ∧ t.regCount = 0)

/-- R150, R210: the whole result of DEC.PARSE, by the steps of the rule; every field not named keeps its value. `c` is
the state with the result fields cleared and the operand latched (R149). -/
def Obligations.ParseOutcomes : Prop :=
  ∀ (e : Word) (s : State),
    let b := s.rxbuf.read
    let c : State := { s with
      expected := e, decStatus := .none, rspAddr := 0, rspFunc := 0, byteCount := 0, regCount := 0, regs := [],
      excCode := 0, msgId := 0, crcRcvd := 0, crcCalc := 0, crcOk := false, countOk := false }
    let bc := (b 2).toNat
    let eCalc := crc16 [b 0, b 1, b 2]
    let eRcvd := le16 (b 3) (b 4)
    let nCalc := crc16 (s.rxbuf.readBytes 0 (3 + bc))
    let nRcvd := le16 (b (3 + bc)) (b (3 + bc + 1))
    (s.rxLen.toNat < 5 → exec (.decParse e) s = .next { c with
      decStatus := .shortResponse, replies := .err .shortResponse :: s.replies }) ∧
    (5 ≤ s.rxLen.toNat → (b 1).getLsbD 7 = true → exec (.decParse e) s = .next { c with
      decStatus := .deviceError, rspAddr := b 0, rspFunc := b 1, excCode := b 2, msgId := msgIdOf (b 2),
      crcCalc := eCalc, crcRcvd := eRcvd, crcOk := decide (eRcvd = eCalc),
      replies := .err (.deviceError (b 2) (msgString (b 2))) :: s.replies }) ∧
    (5 ≤ s.rxLen.toNat → (b 1).getLsbD 7 = false → s.rxLen.toNat < 3 + bc + 2 →
      exec (.decParse e) s = .next { c with
        decStatus := .shortResponse, rspAddr := b 0, rspFunc := b 1, byteCount := b 2,
        replies := .err .shortResponse :: s.replies }) ∧
    (5 ≤ s.rxLen.toNat → (b 1).getLsbD 7 = false → 3 + bc + 2 ≤ s.rxLen.toNat → s.strictCrc = true → nRcvd ≠ nCalc →
      exec (.decParse e) s = .next { c with
        decStatus := .crcMismatch, rspAddr := b 0, rspFunc := b 1, byteCount := b 2, crcCalc := nCalc,
        crcRcvd := nRcvd, replies := .err .crcMismatch :: s.replies }) ∧
    (5 ≤ s.rxLen.toNat → (b 1).getLsbD 7 = false → 3 + bc + 2 ≤ s.rxLen.toNat →
      (s.strictCrc = false ∨ nRcvd = nCalc) →
      exec (.decParse e) s = .next { c with
        decStatus := .ok, rspAddr := b 0, rspFunc := b 1, byteCount := b 2, crcCalc := nCalc, crcRcvd := nRcvd,
        crcOk := decide (nRcvd = nCalc), regCount := BitVec.ofNat 7 (bc / 2),
        regs := (List.range (bc / 2)).map fun k => be16 (b (3 + 2 * k)) (b (3 + 2 * k + 1)),
        countOk := decide (e.toNat ≤ bc / 2), replies := .ok (bc / 2) :: s.replies })

/-- R169: a second DEC.PARSE with the same operand gives the same reply and leaves the same state. -/
def Obligations.ParseIsIdempotent : Prop :=
  ∀ (e : Word) (s : State), ∃ (t : State) (r : Reply), exec (.decParse e) s = .next t ∧ t.replies = r :: s.replies ∧
    exec (.decParse e) t = .next { t with replies := r :: t.replies }

/-- R160: the operand of DEC.PARSE changes EXPECTED and COUNT_OK only. -/
def Obligations.ExpectedNeverChangesTheResult : Prop :=
  ∀ (e e' : Word) (s : State), ∃ t t' : State, exec (.decParse e) s = .next t ∧ exec (.decParse e') s = .next t' ∧
    t' = { t with expected := e', countOk := t'.countOk }

/-- R148: the first 260 bytes count and no others. `decode_response` gives the same for both; and after RX.CLEAR, the
pushes and DEC.PARSE the block replies the same and every field is the same, all result fields among them, but for
RX_OVF, which tells that bytes were dropped, and the log of replies, which holds one `Done` a push. -/
def Obligations.ReceiveCapIsInvisible : Prop :=
  (∀ (raw : List Byte) (strict : Bool), decodeResponse (raw.take 260) strict = decodeResponse raw strict) ∧
  (∀ (raw : List Byte) (e : Word) (s : State), ∃ t u : State,
    execAll (.rxClear :: (raw.map .rxPush ++ [.decParse e])) s = .next t ∧
    execAll (.rxClear :: ((raw.take 260).map .rxPush ++ [.decParse e])) s = .next u ∧
    t = { u with rxOvf := t.rxOvf, replies := t.replies } ∧ t.replies.head? = u.replies.head?)

/-- R158: the bytes after a frame do not count: once a sequence is not short, nothing appended to it changes the
result. -/
def Obligations.TrailingBytesAreIgnored : Prop :=
  ∀ (raw more : List Byte) (strict : Bool), decodeResponse raw strict ≠ .error .shortResponse →
    decodeResponse (raw ++ more) strict = decodeResponse raw strict

/-- R170: every proper prefix of a frame is short. A frame is a sequence that is not short and is no longer than it
announces. -/
def Obligations.ProperPrefixOfAFrameIsShort : Prop :=
  ∀ (raw : List Byte) (strict : Bool) (k : Nat),
    raw.length = (if errorBit (byteOf raw 1) then 5 else 3 + (byteOf raw 2).toNat + 2) → k < raw.length →
    decodeResponse (raw.take k) strict = .error .shortResponse

/-- R164: parity mode never reports a mismatch; what strict mode accepts parity mode accepts with the same registers;
and the two modes differ only where strict mode reports a mismatch. -/
def Obligations.ModesDifferOnlyOnMismatch : Prop :=
  ∀ raw : List Byte,
    decodeResponse raw false ≠ .error .crcMismatch ∧
    (∀ regs, decodeResponse raw true = .ok regs → decodeResponse raw false = .ok regs) ∧
    (decodeResponse raw true ≠ decodeResponse raw false ↔ decodeResponse raw true = .error .crcMismatch)

/-- R167: a fabricated response decodes to the registers put into it, a fabricated error frame to its code and message,
in both modes. -/
def Obligations.FabricatedResponsesRoundTrip : Prop :=
  (∀ (a f : Byte) (regs : List Word) (strict : Bool), errorBit f = false → regs.length ≤ 127 →
    decodeResponse (makeResponse a f regs) strict = .ok regs) ∧
  (∀ (a f e : Byte) (strict : Bool), errorBit f = false →
    decodeResponse (makeError a f e) strict = .error (.deviceError e (msgString e)))

/-- R93, R94: the message table. -/
def Obligations.MessageTable : Prop :=
  (∀ p ∈ [(0x01, 1, "illegal function"), (0x02, 2, "illegal data address"), (0x03, 3, "illegal data value"),
      (0x04, 4, "slave device failure"), (0x05, 5, "acknowledge"), (0x06, 6, "slave device busy"),
      (0x08, 7, "memory parity error"), (0x0A, 8, "gateway path unavailable"),
      (0x0B, 9, "gateway target device failed to respond")],
    msgIdOf p.1 = p.2.1 ∧ msgString p.1 = p.2.2) ∧
  (∀ c : Byte, c ∉ listedCodes → msgIdOf c = 10 ∧ msgString c = "unknown error") ∧
  (∀ c : Byte, msgIdOf c ≠ 0)

/-- R249: the result fields and EXPECTED change by DEC.PARSE, RX.CLEAR, reset and the response frames only. -/
def Obligations.ResultsOutliveTheBuffer : Prop :=
  ∀ (i : Instr) (s : State), writesResults i = false → ∃ t, exec i s = .next t ∧
    t.expected = s.expected ∧ t.decStatus = s.decStatus ∧ t.rspAddr = s.rspAddr ∧ t.rspFunc = s.rspFunc ∧
    t.byteCount = s.byteCount ∧ t.regCount = s.regCount ∧ t.regs = s.regs ∧ t.excCode = s.excCode ∧
    t.msgId = s.msgId ∧ t.crcRcvd = s.crcRcvd ∧ t.crcCalc = s.crcCalc ∧ t.crcOk = s.crcOk ∧ t.countOk = s.countOk

/-- R20, R33, R34, R60: TXBUF with its pointer and flag changes by the transmit side's commands only, RXBUF with its
length and flag by the receive side's only. -/
def Obligations.BuffersChangeByTheirOwnUnitOnly : Prop :=
  ∀ (i : Instr) (s : State), ∃ t, exec i s = .next t ∧
    (writesTx i = false → t.txbuf = s.txbuf ∧ t.txPtr = s.txPtr ∧ t.txValid = s.txValid) ∧
    (writesRx i = false → t.rxbuf = s.rxbuf ∧ t.rxLen = s.rxLen ∧ t.rxOvf = s.rxOvf)

/-! ### Reading results -/

/-- R165: DEC.RDREG replies the register where there is one and is refused where there is none; no state changes. -/
def Obligations.RdregRepliesOrRefuses : Prop :=
  ∀ (i : Byte) (s : State),
    (s.decStatus = .ok → i.toNat < s.regCount.toNat →
      exec (.decRdreg i) s = .next { s with replies := .value (s.regs.getD i.toNat 0) :: s.replies }) ∧
    (s.decStatus ≠ .ok ∨ s.regCount.toNat ≤ i.toNat →
      exec (.decRdreg i) s = .next { s with replies := .refused .noData :: s.replies })

/-- R156, R165: after a parse that replied `Ok`, register `k` is bytes `3 + 2k` and `3 + 2k + 1`, high byte first, and an
index past the last register is refused. -/
def Obligations.RdregReadsThePayload : Prop :=
  ∀ (e : Word) (i : Byte) (s t : State) (n : Nat),
    exec (.decParse e) s = .next t → t.replies.head? = some (.ok n) →
    n = (s.rxbuf.read 2).toNat / 2 ∧
    exec (.decRdreg i) t = .next (t.log (if i.toNat < n then
      .value (be16 (s.rxbuf.read (3 + 2 * i.toNat)) (s.rxbuf.read (3 + 2 * i.toNat + 1))) else .refused .noData))

/-- R166: DEC.RDRAW replies the received byte below RX_LEN, in every status, and is refused above; no state changes. -/
def Obligations.RdrawRepliesOrRefuses : Prop :=
  ∀ (j : Word) (s : State),
    (j.toNat < s.rxLen.toNat →
      exec (.decRdraw j) s = .next { s with replies := .value ((s.rxbuf.read j.toNat).setWidth 16) :: s.replies }) ∧
    (s.rxLen.toNat ≤ j.toNat → exec (.decRdraw j) s = .next { s with replies := .refused .rawRange :: s.replies })

/-! ### Refusals -/

/-- R219: an input whose reply is a refusal changed nothing: the input is gone from the host's queue and the refusal is in
the log of replies, and that is all. -/
def Obligations.RefusalsLeaveNoTrace : Prop :=
  ∀ (s t : State) (x : Input) (rest : List Input) (r : RefuseReason),
    s.inbox = x :: rest → step s = .next t → t.replies.head? = some (.refused r) →
    t = { s with inbox := rest, replies := .refused r :: s.replies }

/-- R218: which command word is refused with which reason, and when; every other word never is. -/
def Obligations.RefusalsAreExactlyThoseListed : Prop :=
  ∀ (s t : State) (w : Word64) (rest : List Input), s.inbox = .command w :: rest → step s = .next t →
    ∀ r : RefuseReason, (t.replies.head? = some (.refused r) ↔
      ((∀ row ∈ commandTable, ¬ row.matches w) ∧ r = .illegalCommand) ∨
      (∃ k, decode (.command w) = .ok (.sysRd k) ∧ 0x0D < k ∧ r = .badRegister) ∨
      (∃ k v, decode (.command w) = .ok (.sysWr k v) ∧ 0x0D < k ∧ r = .badRegister) ∨
      (∃ k v, decode (.command w) = .ok (.sysWr k v) ∧ 0x01 ≤ k ∧ k ≤ 0x0D ∧ r = .readOnly) ∨
      (decode (.command w) = .ok .txPop ∧ s.txValid = false ∧ r = .txEmpty) ∨
      (∃ k, decode (.command w) = .ok (.decRdreg k) ∧ (s.decStatus ≠ .ok ∨ s.regCount.toNat ≤ k.toNat) ∧
        r = .noData) ∨
      (∃ j, decode (.command w) = .ok (.decRdraw j) ∧ s.rxLen.toNat ≤ j.toNat ∧ r = .rawRange))

/-! ### Frames on the wire -/

/-- R81, R95 (the meaning of a wire row is the model's, assumption log 3): a request row runs ENC.BUILD and eight TX.POP;
the replies to the pops are, in order, the eight bytes of the frame; nothing is left pending; and nothing but the
transmit side and the replies changes. -/
def Obligations.RequestRowsSendTheirFrame : Prop :=
  ∀ (i : Instr) (a f : Byte) (st n : Word) (s : State), requestOf i = some (a, f, st, n) → ∃ t,
    exec i s = .next t ∧ execAll (.encBuild a f st n :: List.replicate 8 .txPop) s = .next t ∧
    t = { s with txbuf := t.txbuf, txPtr := 8, txValid := false, replies := t.replies } ∧
    t.txbuf.readBytes 0 8 = buildRequest a f st n ∧ (∀ k, 8 ≤ k → t.txbuf.read k = s.txbuf.read k) ∧
    t.replies = ((buildRequest a f st n).map fun b => Reply.value (b.setWidth 16)).reverse ++ .done :: s.replies

/-- R81, R85 (that a request row sends is the model's, assumption log 3; with other CRC bytes it is not well-formed,
assumption log 7): the eight bytes a well-formed request row sends, in the replies after `Done`, are those of its own
encoding, byte 0 first, and they are `build_request` of its operands. -/
def Obligations.RequestRowBytesAreTheEncoding : Prop :=
  ∀ (i : Instr) (a f : Byte) (st n : Word) (s : State), WellFormed i → requestOf i = some (a, f, st, n) →
    ∃ (v : Word64) (t : State),
      encode i = .request v ∧ exec i s = .next t ∧
      t.replies = ((List.range 8).map fun k =>
        Reply.value ((v.extractLsb' (56 - 8 * k) 8).setWidth 16)).reverse ++ .done :: s.replies ∧
      buildRequest a f st n = (List.range 8).map fun k => v.extractLsb' (56 - 8 * k) 8

/-- R95 (the meaning of a wire row is the model's, assumption log 3, 4): a response row runs RX.CLEAR, one RX.PUSH a byte
of its frame, and DEC.PARSE; the transmit side, CRC_ACC and CTRL are untouched. -/
def Obligations.ResponseRowsLoadAndParse : Prop :=
  ∀ (i : Instr) (x : Word) (bytes : List Byte) (s : State), responseOf i = some (x, bytes) → ∃ t,
    exec i s = .next t ∧ execAll (.rxClear :: (bytes.map .rxPush ++ [.decParse x])) s = .next t ∧
    t.crcAcc = s.crcAcc ∧ t.txbuf = s.txbuf ∧ t.txPtr = s.txPtr ∧ t.txValid = s.txValid ∧
    t.strictCrc = s.strictCrc ∧ t.inbox = s.inbox

/-- R82, R156, R157 (through a wire row, assumption log 3): a well-formed normal response leaves its registers, unless
strict mode is on and its CRC is wrong. -/
def Obligations.NormalResponseRowOutcome : Prop :=
  ∀ (x : Word) (a f bc : Byte) (payload : List Byte) (l h : Byte) (i : Instr) (s : State),
    i = .rspN x a f bc payload l h ∨ (f = 0x03 ∧ i = .rspNF03 x a bc payload l h) → WellFormed i → ∃ t,
      exec i s = .next t ∧ t.rxLen.toNat = bc.toNat + 5 ∧ t.rspAddr = a ∧ t.rspFunc = f ∧ t.byteCount = bc ∧
      t.crcCalc = crc16 (a :: f :: bc :: payload) ∧ t.crcRcvd = le16 l h ∧ t.expected = x ∧
      (s.strictCrc = true → le16 l h ≠ crc16 (a :: f :: bc :: payload) →
        t.decStatus = .crcMismatch ∧ t.regs = [] ∧ t.replies.head? = some (.err .crcMismatch)) ∧
      (s.strictCrc = false ∨ le16 l h = crc16 (a :: f :: bc :: payload) →
        t.decStatus = .ok ∧ t.replies.head? = some (.ok (bc.toNat / 2)) ∧ t.regs.length = bc.toNat / 2 ∧
        ∀ k, k < bc.toNat / 2 → t.regs.getD k 0 = be16 (payload.getD (2 * k) 0) (payload.getD (2 * k + 1) 0))

/-- R83, R93, R153 (through a wire row, assumption log 3): a response row whose frame has bit 7 of the function code set
reports its code and message in both modes, whatever its CRC. -/
def Obligations.ErrorResponseRowOutcome : Prop :=
  ∀ (i : Instr) (x : Word) (a f e l h : Byte) (s : State),
    responseOf i = some (x, [a, f, e, l, h]) → errorBit f = true → ∃ t,
      exec i s = .next t ∧ t.decStatus = .deviceError ∧ t.rxLen = 5 ∧ t.rspAddr = a ∧ t.rspFunc = f ∧
      t.excCode = e ∧ t.msgId = msgIdOf e ∧ t.crcRcvd = le16 l h ∧ t.crcCalc = crc16 [a, f, e] ∧
      t.crcOk = decide (le16 l h = crc16 [a, f, e]) ∧ t.regs = [] ∧ t.expected = x ∧
      t.replies.head? = some (.err (.deviceError e (msgString e)))

/-! ### What a host can observe -/

/-- R16, R23, R33, R34, R44: two states that agree on everything readable still agree after a step: no input makes the
storage behind the buffers and the registers visible. -/
def Obligations.HiddenStorageIsNotObservable : Prop :=
  ∀ s t s' t' : State, Inv s → Inv t → SameView s t → step s = .next s' → step t = .next t' → SameView s' t'

/-! ### The host's polls -/

/-- R180, R167, R191: in both modes a poll answered by the response fabricated to match it returns the registers put into
that response, whatever the state before. -/
def Obligations.PollRecoversTheRegisters : Prop :=
  ∀ (a : Byte) (st n : Word) (regs : List Word) (s : State), regs.length = n.toNat → n.toNat ≤ 127 →
    (poll a st n (.bytes (makeResponse a 0x03 regs)) s).2 = .registers regs

/-- R181 to R183, R185: the three profiles' decoding of the registers of a matching response: whole degrees unscaled;
per channel the sentinel or exact tenths; two values in tenths with no sentinel. -/
def Obligations.ProfilesDecodeTheirRegisters : Prop :=
  ∀ (a : Byte) (s : State) (r t h : Word) (regs : List Word), regs.length = 8 →
    (pollProfile .env a (.bytes (makeResponse a 0x03 [r])) s).2 = .env r.toNat ∧
    (pollProfile .th a (.bytes (makeResponse a 0x03 [t, h])) s).2 = .pair t.toNat h.toNat ∧
    ∃ cs, (pollProfile .ch8 a (.bytes (makeResponse a 0x03 regs)) s).2 = .channels cs ∧ cs.length = 8 ∧
      ∀ i, i < 8 → cs[i]? = some (if regs.getD i 0 = 0x5555 then .disconnected else .temperature (regs.getD i 0).toNat)
end

