-- ==== Sys2Proof/Laws/Memory.lean ====
section
/-! SUPPORT. The laws of a buffer: reading after a write, and the canonical form. -/

namespace Sys2Proof.Machine

open Config (unlistedByte)

@[simp] theorem Memory.read_empty (a : Nat) : Memory.read [] a = 0 := rfl

theorem Memory.read_clearAt (m : Memory) (a b : Nat) :
    Memory.read (Memory.clearAt m a) b = if b = a then unlistedByte else Memory.read m b := by
  induction m with
  | nil => simp only [Memory.clearAt, Memory.read, ite_self]
  | cons c m ih =>
    obtain ⟨k, w⟩ := c
    simp only [Memory.clearAt, Memory.read]
    split <;> simp only [Memory.read, ih] <;> repeat' split
    all_goals first | rfl | omega

theorem Memory.absent_clearAt (m : Memory) (a : Nat) : ∀ c ∈ Memory.clearAt m a, c.1 ≠ a := by
  induction m with
  | nil => simp [Memory.clearAt]
  | cons c m ih =>
    obtain ⟨k, w⟩ := c
    simp only [Memory.clearAt]
    split
    · exact ih
    · rename_i hk
      intro c hc
      rcases List.mem_cons.mp hc with rfl | hc
      · exact hk
      · exact ih c hc

theorem Memory.read_putAt (m : Memory) (a b : Nat) (v : Byte) (h : ∀ c ∈ m, c.1 ≠ a) :
    Memory.read (Memory.putAt m a v) b = if b = a then v else Memory.read m b := by
  induction m with
  | nil =>
    simp only [Memory.putAt, Memory.read]
    by_cases hb : a = b
    · simp [hb]
    · simp [hb, Ne.symm hb]
  | cons c m ih =>
    obtain ⟨k, w⟩ := c
    have hk : k ≠ a := h (k, w) (by simp)
    have ih := ih fun c hc => h c (List.mem_cons_of_mem _ hc)
    simp only [Memory.putAt]
    split <;> simp only [Memory.read, ih] <;> repeat' split
    all_goals first | rfl | omega

/-- A read after a write: the written index reads the written byte, every other index as before. -/
theorem Memory.read_write (m : Memory) (a b : Nat) (v : Byte) :
    Memory.read (Memory.write m a v) b = if b = a then v else Memory.read m b := by
  unfold Memory.write
  split
  · rename_i hv
    rw [Memory.read_clearAt, hv]
  · rw [Memory.read_putAt _ _ _ _ (Memory.absent_clearAt m a), Memory.read_clearAt]
    split <;> rfl

theorem Memory.read_writeBytes (m : Memory) (a b : Nat) (bs : List Byte) :
    Memory.read (Memory.writeBytes m a bs) b =
      if a ≤ b ∧ b < a + bs.length then bs.getD (b - a) 0 else Memory.read m b := by
  induction bs generalizing m a with
  | nil => simp [Memory.writeBytes]
  | cons v bs ih =>
    simp only [Memory.writeBytes, ih, Memory.read_write, List.length_cons]
    by_cases h1 : b = a
    · subst h1
      simp
    · by_cases h2 : a + 1 ≤ b ∧ b < a + 1 + bs.length
      · have h3 : a ≤ b ∧ b < a + (bs.length + 1) := by omega
        have h4 : b - a = (b - (a + 1)) + 1 := by omega
        rw [if_pos h2, if_pos h3, h4, List.getD_cons_succ]
      · have h3 : ¬ (a ≤ b ∧ b < a + (bs.length + 1)) := by omega
        rw [if_neg h2, if_neg h3, if_neg h1]

@[simp] theorem Memory.length_readBytes (m : Memory) (a n : Nat) : (Memory.readBytes m a n).length = n := by
  induction n generalizing a with
  | zero => rfl
  | succ n ih => simp [Memory.readBytes, ih]

theorem Memory.getElem?_readBytes (m : Memory) (a n i : Nat) (h : i < n) :
    (Memory.readBytes m a n)[i]? = some (Memory.read m (a + i)) := by
  induction n generalizing a i with
  | zero => omega
  | succ n ih =>
    cases i with
    | zero => simp [Memory.readBytes]
    | succ i =>
      simp only [Memory.readBytes, List.getElem?_cons_succ]
      rw [ih (a + 1) i (by omega)]
      congr 2
      omega

theorem Memory.getD_readBytes (m : Memory) (a n i : Nat) (h : i < n) :
    (Memory.readBytes m a n).getD i 0 = Memory.read m (a + i) := by
  rw [List.getD_eq_getElem?_getD, Memory.getElem?_readBytes m a n i h, Option.getD_some]

/-- Two buffers that read the same from `a` on give the same bytes. -/
theorem Memory.readBytes_congr (m m' : Memory) (a n : Nat)
    (h : ∀ b, a ≤ b → b < a + n → Memory.read m b = Memory.read m' b) :
    Memory.readBytes m a n = Memory.readBytes m' a n := by
  induction n generalizing a with
  | zero => rfl
  | succ n ih =>
    simp only [Memory.readBytes]
    rw [h a (by omega) (by omega), ih (a + 1) fun b h1 h2 => h b (by omega) (by omega)]

theorem Memory.take_readBytes (m : Memory) (a n k : Nat) (h : k ≤ n) :
    (Memory.readBytes m a n).take k = Memory.readBytes m a k := by
  induction n generalizing a k with
  | zero => simp [show k = 0 by omega, Memory.readBytes]
  | succ n ih =>
    cases k with
    | zero => rfl
    | succ k => simp only [Memory.readBytes, List.take_succ_cons, ih (a + 1) k (by omega)]

/-- What was written is read back. -/
theorem Memory.readBytes_writeBytes (m : Memory) (a : Nat) (bs : List Byte) :
    Memory.readBytes (Memory.writeBytes m a bs) a bs.length = bs := by
  apply List.ext_getElem?
  intro i
  by_cases h : i < bs.length
  · rw [Memory.getElem?_readBytes _ _ _ _ h, Memory.read_writeBytes]
    have h1 : a ≤ a + i ∧ a + i < a + bs.length := by omega
    rw [if_pos h1, Nat.add_sub_cancel_left, List.getD_eq_getElem?_getD, List.getElem?_eq_getElem h, Option.getD_some]
  · rw [List.getElem?_eq_none (by simpa using h), List.getElem?_eq_none (by omega)]

/-! ### The canonical form -/

theorem Memory.wfFrom_mono (lo lo' : Nat) (m : Memory) (h : lo' ≤ lo) (hw : Memory.wfFrom lo m = true) :
    Memory.wfFrom lo' m = true := by
  cases m with
  | nil => rfl
  | cons c m =>
    obtain ⟨k, v⟩ := c
    simp only [Memory.wfFrom, Bool.and_eq_true, decide_eq_true_eq] at hw ⊢
    exact ⟨⟨by omega, hw.1.2⟩, hw.2⟩

theorem Memory.wfFrom_clearAt (lo a : Nat) (m : Memory) (h : Memory.wfFrom lo m = true) :
    Memory.wfFrom lo (Memory.clearAt m a) = true := by
  induction m generalizing lo with
  | nil => rfl
  | cons c m ih =>
    obtain ⟨k, v⟩ := c
    simp only [Memory.wfFrom, Bool.and_eq_true, decide_eq_true_eq] at h
    simp only [Memory.clearAt]
    split
    · exact Memory.wfFrom_mono (k + 1) lo _ (by omega) (ih (k + 1) h.2)
    · simp only [Memory.wfFrom, Bool.and_eq_true, decide_eq_true_eq]
      exact ⟨h.1, ih (k + 1) h.2⟩

theorem Memory.wfFrom_putAt (lo a : Nat) (v : Byte) (m : Memory) (hlo : lo ≤ a) (hv : v ≠ unlistedByte)
    (ha : ∀ c ∈ m, c.1 ≠ a) (h : Memory.wfFrom lo m = true) : Memory.wfFrom lo (Memory.putAt m a v) = true := by
  induction m generalizing lo with
  | nil => simp [Memory.putAt, Memory.wfFrom, hlo, hv]
  | cons c m ih =>
    obtain ⟨k, w⟩ := c
    have hk : k ≠ a := ha (k, w) (by simp)
    simp only [Memory.wfFrom, Bool.and_eq_true, decide_eq_true_eq, bne_iff_ne] at h
    simp only [Memory.putAt]
    split
    · simp only [Memory.wfFrom, Bool.and_eq_true, decide_eq_true_eq, bne_iff_ne]
      exact ⟨⟨hlo, hv⟩, ⟨by omega, h.1.2⟩, h.2⟩
    · simp only [Memory.wfFrom, Bool.and_eq_true, decide_eq_true_eq, bne_iff_ne]
      exact ⟨h.1, ih (k + 1) (by omega) (fun c hc => ha c (List.mem_cons_of_mem _ hc)) h.2⟩

/-- A write keeps the canonical form. -/
theorem Memory.wf_write (m : Memory) (a : Nat) (v : Byte) (h : Memory.wf m = true) :
    Memory.wf (Memory.write m a v) = true := by
  unfold Memory.write
  split
  · exact Memory.wfFrom_clearAt 0 a m h
  · rename_i hv
    exact Memory.wfFrom_putAt 0 a v _ (Nat.zero_le a) hv (Memory.absent_clearAt m a) (Memory.wfFrom_clearAt 0 a m h)

/-- A write of several bytes keeps the canonical form. -/
theorem Memory.wf_writeBytes (m : Memory) (a : Nat) (bs : List Byte) (h : Memory.wf m = true) :
    Memory.wf (Memory.writeBytes m a bs) = true := by
  induction bs generalizing m a with
  | nil => exact h
  | cons b bs ih => exact ih _ _ (Memory.wf_write m a b h)

/-- The empty buffer is in canonical form. -/
@[simp] theorem Memory.wf_empty : Memory.wf [] = true := rfl

theorem Memory.below_iff (n : Nat) (m : Memory) : Memory.below n m = true ↔ ∀ c ∈ m, c.1 < n := by
  simp [Memory.below]

theorem Memory.mem_clearAt (m : Memory) (a : Nat) (c : Host.Cell) (h : c ∈ Memory.clearAt m a) : c ∈ m := by
  induction m with
  | nil => exact h
  | cons d m ih =>
    obtain ⟨k, w⟩ := d
    simp only [Memory.clearAt] at h
    split at h
    · exact List.mem_cons_of_mem _ (ih h)
    · rcases List.mem_cons.mp h with rfl | h
      · exact List.mem_cons_self ..
      · exact List.mem_cons_of_mem _ (ih h)

theorem Memory.mem_putAt (m : Memory) (a : Nat) (v : Byte) (c : Host.Cell) (h : c ∈ Memory.putAt m a v) :
    c = (a, v) ∨ c ∈ m := by
  induction m with
  | nil => simpa [Memory.putAt] using h
  | cons d m ih =>
    obtain ⟨k, w⟩ := d
    simp only [Memory.putAt] at h
    split at h
    · exact List.mem_cons.mp h
    · rcases List.mem_cons.mp h with rfl | h
      · exact .inr (List.mem_cons_self ..)
      · exact (ih h).imp_right (List.mem_cons_of_mem _)

/-- A write below `n` keeps a buffer whose indices are below `n`. -/
theorem Memory.below_write (n : Nat) (m : Memory) (a : Nat) (v : Byte) (ha : a < n) (h : Memory.below n m = true) :
    Memory.below n (Memory.write m a v) = true := by
  rw [Memory.below_iff] at h ⊢
  intro c hc
  unfold Memory.write at hc
  split at hc
  · exact h c (Memory.mem_clearAt m a c hc)
  · rcases Memory.mem_putAt _ _ _ _ hc with rfl | hc
    · exact ha
    · exact h c (Memory.mem_clearAt m a c hc)

theorem Memory.below_writeBytes (n : Nat) (m : Memory) (a : Nat) (bs : List Byte) (ha : a + bs.length ≤ n)
    (h : Memory.below n m = true) : Memory.below n (Memory.writeBytes m a bs) = true := by
  induction bs generalizing m a with
  | nil => exact h
  | cons b bs ih =>
    simp only [List.length_cons] at ha
    exact ih _ _ (by omega) (Memory.below_write n m a b (by omega) h)

theorem Memory.below_mono (n n' : Nat) (m : Memory) (hn : n ≤ n') (h : Memory.below n m = true) :
    Memory.below n' m = true := by
  rw [Memory.below_iff] at h ⊢
  exact fun c hc => Nat.lt_of_lt_of_le (h c hc) hn

/-- A buffer reads the unlisted byte where nothing is listed. -/
theorem Memory.read_above (n : Nat) (m : Memory) (a : Nat) (ha : n ≤ a) (h : Memory.below n m = true) :
    Memory.read m a = unlistedByte := by
  induction m with
  | nil => rfl
  | cons c m ih =>
    obtain ⟨k, v⟩ := c
    simp only [Memory.below, List.all_cons, Bool.and_eq_true, decide_eq_true_eq] at h
    have hk : k ≠ a := by omega
    simp only [Memory.read, hk, if_false]
    exact ih h.2

end Sys2Proof.Machine
end

