-- ==== Sys2Proof/Laws/State.lean ====
section
/-! SUPPORT. One lemma per field per named update of State, so that no later proof unfolds a record update. -/

namespace Sys2Proof.Machine

/-! ### State.log -/

@[simp] theorem State.log_crcAcc (s : State) (r : Reply) : (s.log r).crcAcc = s.crcAcc := rfl
@[simp] theorem State.log_txbuf (s : State) (r : Reply) : (s.log r).txbuf = s.txbuf := rfl
@[simp] theorem State.log_txPtr (s : State) (r : Reply) : (s.log r).txPtr = s.txPtr := rfl
@[simp] theorem State.log_txValid (s : State) (r : Reply) : (s.log r).txValid = s.txValid := rfl
@[simp] theorem State.log_rxbuf (s : State) (r : Reply) : (s.log r).rxbuf = s.rxbuf := rfl
@[simp] theorem State.log_rxLen (s : State) (r : Reply) : (s.log r).rxLen = s.rxLen := rfl
@[simp] theorem State.log_rxOvf (s : State) (r : Reply) : (s.log r).rxOvf = s.rxOvf := rfl
@[simp] theorem State.log_strictCrc (s : State) (r : Reply) : (s.log r).strictCrc = s.strictCrc := rfl
@[simp] theorem State.log_expected (s : State) (r : Reply) : (s.log r).expected = s.expected := rfl
@[simp] theorem State.log_decStatus (s : State) (r : Reply) : (s.log r).decStatus = s.decStatus := rfl
@[simp] theorem State.log_rspAddr (s : State) (r : Reply) : (s.log r).rspAddr = s.rspAddr := rfl
@[simp] theorem State.log_rspFunc (s : State) (r : Reply) : (s.log r).rspFunc = s.rspFunc := rfl
@[simp] theorem State.log_byteCount (s : State) (r : Reply) : (s.log r).byteCount = s.byteCount := rfl
@[simp] theorem State.log_regCount (s : State) (r : Reply) : (s.log r).regCount = s.regCount := rfl
@[simp] theorem State.log_regs (s : State) (r : Reply) : (s.log r).regs = s.regs := rfl
@[simp] theorem State.log_excCode (s : State) (r : Reply) : (s.log r).excCode = s.excCode := rfl
@[simp] theorem State.log_msgId (s : State) (r : Reply) : (s.log r).msgId = s.msgId := rfl
@[simp] theorem State.log_crcRcvd (s : State) (r : Reply) : (s.log r).crcRcvd = s.crcRcvd := rfl
@[simp] theorem State.log_crcCalc (s : State) (r : Reply) : (s.log r).crcCalc = s.crcCalc := rfl
@[simp] theorem State.log_crcOk (s : State) (r : Reply) : (s.log r).crcOk = s.crcOk := rfl
@[simp] theorem State.log_countOk (s : State) (r : Reply) : (s.log r).countOk = s.countOk := rfl
@[simp] theorem State.log_inbox (s : State) (r : Reply) : (s.log r).inbox = s.inbox := rfl
@[simp] theorem State.log_replies (s : State) (r : Reply) : (s.log r).replies = r :: s.replies := rfl

/-! ### refuse -/

@[simp] theorem refuse_crcAcc (r : RefuseReason) (s : State) : (refuse r s).crcAcc = s.crcAcc := rfl
@[simp] theorem refuse_txbuf (r : RefuseReason) (s : State) : (refuse r s).txbuf = s.txbuf := rfl
@[simp] theorem refuse_txPtr (r : RefuseReason) (s : State) : (refuse r s).txPtr = s.txPtr := rfl
@[simp] theorem refuse_txValid (r : RefuseReason) (s : State) : (refuse r s).txValid = s.txValid := rfl
@[simp] theorem refuse_rxbuf (r : RefuseReason) (s : State) : (refuse r s).rxbuf = s.rxbuf := rfl
@[simp] theorem refuse_rxLen (r : RefuseReason) (s : State) : (refuse r s).rxLen = s.rxLen := rfl
@[simp] theorem refuse_rxOvf (r : RefuseReason) (s : State) : (refuse r s).rxOvf = s.rxOvf := rfl
@[simp] theorem refuse_strictCrc (r : RefuseReason) (s : State) : (refuse r s).strictCrc = s.strictCrc := rfl
@[simp] theorem refuse_expected (r : RefuseReason) (s : State) : (refuse r s).expected = s.expected := rfl
@[simp] theorem refuse_decStatus (r : RefuseReason) (s : State) : (refuse r s).decStatus = s.decStatus := rfl
@[simp] theorem refuse_rspAddr (r : RefuseReason) (s : State) : (refuse r s).rspAddr = s.rspAddr := rfl
@[simp] theorem refuse_rspFunc (r : RefuseReason) (s : State) : (refuse r s).rspFunc = s.rspFunc := rfl
@[simp] theorem refuse_byteCount (r : RefuseReason) (s : State) : (refuse r s).byteCount = s.byteCount := rfl
@[simp] theorem refuse_regCount (r : RefuseReason) (s : State) : (refuse r s).regCount = s.regCount := rfl
@[simp] theorem refuse_regs (r : RefuseReason) (s : State) : (refuse r s).regs = s.regs := rfl
@[simp] theorem refuse_excCode (r : RefuseReason) (s : State) : (refuse r s).excCode = s.excCode := rfl
@[simp] theorem refuse_msgId (r : RefuseReason) (s : State) : (refuse r s).msgId = s.msgId := rfl
@[simp] theorem refuse_crcRcvd (r : RefuseReason) (s : State) : (refuse r s).crcRcvd = s.crcRcvd := rfl
@[simp] theorem refuse_crcCalc (r : RefuseReason) (s : State) : (refuse r s).crcCalc = s.crcCalc := rfl
@[simp] theorem refuse_crcOk (r : RefuseReason) (s : State) : (refuse r s).crcOk = s.crcOk := rfl
@[simp] theorem refuse_countOk (r : RefuseReason) (s : State) : (refuse r s).countOk = s.countOk := rfl
@[simp] theorem refuse_inbox (r : RefuseReason) (s : State) : (refuse r s).inbox = s.inbox := rfl
@[simp] theorem refuse_replies (r : RefuseReason) (s : State) : (refuse r s).replies = .refused r :: s.replies := rfl

/-! ### raise -/

@[simp] theorem raise_crcAcc (e : ProtocolError) (s : State) : (raise e s).crcAcc = s.crcAcc := rfl
@[simp] theorem raise_txbuf (e : ProtocolError) (s : State) : (raise e s).txbuf = s.txbuf := rfl
@[simp] theorem raise_txPtr (e : ProtocolError) (s : State) : (raise e s).txPtr = s.txPtr := rfl
@[simp] theorem raise_txValid (e : ProtocolError) (s : State) : (raise e s).txValid = s.txValid := rfl
@[simp] theorem raise_rxbuf (e : ProtocolError) (s : State) : (raise e s).rxbuf = s.rxbuf := rfl
@[simp] theorem raise_rxLen (e : ProtocolError) (s : State) : (raise e s).rxLen = s.rxLen := rfl
@[simp] theorem raise_rxOvf (e : ProtocolError) (s : State) : (raise e s).rxOvf = s.rxOvf := rfl
@[simp] theorem raise_strictCrc (e : ProtocolError) (s : State) : (raise e s).strictCrc = s.strictCrc := rfl
@[simp] theorem raise_expected (e : ProtocolError) (s : State) : (raise e s).expected = s.expected := rfl
@[simp] theorem raise_decStatus (e : ProtocolError) (s : State) : (raise e s).decStatus = statusOf e := rfl
@[simp] theorem raise_rspAddr (e : ProtocolError) (s : State) : (raise e s).rspAddr = s.rspAddr := rfl
@[simp] theorem raise_rspFunc (e : ProtocolError) (s : State) : (raise e s).rspFunc = s.rspFunc := rfl
@[simp] theorem raise_byteCount (e : ProtocolError) (s : State) : (raise e s).byteCount = s.byteCount := rfl
@[simp] theorem raise_regCount (e : ProtocolError) (s : State) : (raise e s).regCount = s.regCount := rfl
@[simp] theorem raise_regs (e : ProtocolError) (s : State) : (raise e s).regs = s.regs := rfl
@[simp] theorem raise_excCode (e : ProtocolError) (s : State) : (raise e s).excCode = s.excCode := rfl
@[simp] theorem raise_msgId (e : ProtocolError) (s : State) : (raise e s).msgId = s.msgId := rfl
@[simp] theorem raise_crcRcvd (e : ProtocolError) (s : State) : (raise e s).crcRcvd = s.crcRcvd := rfl
@[simp] theorem raise_crcCalc (e : ProtocolError) (s : State) : (raise e s).crcCalc = s.crcCalc := rfl
@[simp] theorem raise_crcOk (e : ProtocolError) (s : State) : (raise e s).crcOk = s.crcOk := rfl
@[simp] theorem raise_countOk (e : ProtocolError) (s : State) : (raise e s).countOk = s.countOk := rfl
@[simp] theorem raise_inbox (e : ProtocolError) (s : State) : (raise e s).inbox = s.inbox := rfl
@[simp] theorem raise_replies (e : ProtocolError) (s : State) : (raise e s).replies = .err e :: s.replies := rfl

/-! ### State.clearResults -/

@[simp] theorem State.clearResults_crcAcc (s : State) (e : Word) : (s.clearResults e).crcAcc = s.crcAcc := rfl
@[simp] theorem State.clearResults_txbuf (s : State) (e : Word) : (s.clearResults e).txbuf = s.txbuf := rfl
@[simp] theorem State.clearResults_txPtr (s : State) (e : Word) : (s.clearResults e).txPtr = s.txPtr := rfl
@[simp] theorem State.clearResults_txValid (s : State) (e : Word) : (s.clearResults e).txValid = s.txValid := rfl
@[simp] theorem State.clearResults_rxbuf (s : State) (e : Word) : (s.clearResults e).rxbuf = s.rxbuf := rfl
@[simp] theorem State.clearResults_rxLen (s : State) (e : Word) : (s.clearResults e).rxLen = s.rxLen := rfl
@[simp] theorem State.clearResults_rxOvf (s : State) (e : Word) : (s.clearResults e).rxOvf = s.rxOvf := rfl
@[simp] theorem State.clearResults_strictCrc (s : State) (e : Word) : (s.clearResults e).strictCrc = s.strictCrc := rfl
@[simp] theorem State.clearResults_expected (s : State) (e : Word) : (s.clearResults e).expected = e := rfl
@[simp] theorem State.clearResults_decStatus (s : State) (e : Word) : (s.clearResults e).decStatus = .none := rfl
@[simp] theorem State.clearResults_rspAddr (s : State) (e : Word) : (s.clearResults e).rspAddr = 0 := rfl
@[simp] theorem State.clearResults_rspFunc (s : State) (e : Word) : (s.clearResults e).rspFunc = 0 := rfl
@[simp] theorem State.clearResults_byteCount (s : State) (e : Word) : (s.clearResults e).byteCount = 0 := rfl
@[simp] theorem State.clearResults_regCount (s : State) (e : Word) : (s.clearResults e).regCount = 0 := rfl
@[simp] theorem State.clearResults_regs (s : State) (e : Word) : (s.clearResults e).regs = [] := rfl
@[simp] theorem State.clearResults_excCode (s : State) (e : Word) : (s.clearResults e).excCode = 0 := rfl
@[simp] theorem State.clearResults_msgId (s : State) (e : Word) : (s.clearResults e).msgId = 0 := rfl
@[simp] theorem State.clearResults_crcRcvd (s : State) (e : Word) : (s.clearResults e).crcRcvd = 0 := rfl
@[simp] theorem State.clearResults_crcCalc (s : State) (e : Word) : (s.clearResults e).crcCalc = 0 := rfl
@[simp] theorem State.clearResults_crcOk (s : State) (e : Word) : (s.clearResults e).crcOk = false := rfl
@[simp] theorem State.clearResults_countOk (s : State) (e : Word) : (s.clearResults e).countOk = false := rfl
@[simp] theorem State.clearResults_inbox (s : State) (e : Word) : (s.clearResults e).inbox = s.inbox := rfl
@[simp] theorem State.clearResults_replies (s : State) (e : Word) : (s.clearResults e).replies = s.replies := rfl

/-! ### State.emptyRx -/

@[simp] theorem State.emptyRx_crcAcc (s : State) : (s.emptyRx).crcAcc = s.crcAcc := rfl
@[simp] theorem State.emptyRx_txbuf (s : State) : (s.emptyRx).txbuf = s.txbuf := rfl
@[simp] theorem State.emptyRx_txPtr (s : State) : (s.emptyRx).txPtr = s.txPtr := rfl
@[simp] theorem State.emptyRx_txValid (s : State) : (s.emptyRx).txValid = s.txValid := rfl
@[simp] theorem State.emptyRx_rxbuf (s : State) : (s.emptyRx).rxbuf = [] := rfl
@[simp] theorem State.emptyRx_rxLen (s : State) : (s.emptyRx).rxLen = 0 := rfl
@[simp] theorem State.emptyRx_rxOvf (s : State) : (s.emptyRx).rxOvf = false := rfl
@[simp] theorem State.emptyRx_strictCrc (s : State) : (s.emptyRx).strictCrc = s.strictCrc := rfl
@[simp] theorem State.emptyRx_expected (s : State) : (s.emptyRx).expected = s.expected := rfl
@[simp] theorem State.emptyRx_decStatus (s : State) : (s.emptyRx).decStatus = s.decStatus := rfl
@[simp] theorem State.emptyRx_rspAddr (s : State) : (s.emptyRx).rspAddr = s.rspAddr := rfl
@[simp] theorem State.emptyRx_rspFunc (s : State) : (s.emptyRx).rspFunc = s.rspFunc := rfl
@[simp] theorem State.emptyRx_byteCount (s : State) : (s.emptyRx).byteCount = s.byteCount := rfl
@[simp] theorem State.emptyRx_regCount (s : State) : (s.emptyRx).regCount = s.regCount := rfl
@[simp] theorem State.emptyRx_regs (s : State) : (s.emptyRx).regs = s.regs := rfl
@[simp] theorem State.emptyRx_excCode (s : State) : (s.emptyRx).excCode = s.excCode := rfl
@[simp] theorem State.emptyRx_msgId (s : State) : (s.emptyRx).msgId = s.msgId := rfl
@[simp] theorem State.emptyRx_crcRcvd (s : State) : (s.emptyRx).crcRcvd = s.crcRcvd := rfl
@[simp] theorem State.emptyRx_crcCalc (s : State) : (s.emptyRx).crcCalc = s.crcCalc := rfl
@[simp] theorem State.emptyRx_crcOk (s : State) : (s.emptyRx).crcOk = s.crcOk := rfl
@[simp] theorem State.emptyRx_countOk (s : State) : (s.emptyRx).countOk = s.countOk := rfl
@[simp] theorem State.emptyRx_inbox (s : State) : (s.emptyRx).inbox = s.inbox := rfl
@[simp] theorem State.emptyRx_replies (s : State) : (s.emptyRx).replies = s.replies := rfl

/-! ### rxReset -/

@[simp] theorem rxReset_crcAcc (s : State) : (rxReset s).crcAcc = s.crcAcc := rfl
@[simp] theorem rxReset_txbuf (s : State) : (rxReset s).txbuf = s.txbuf := rfl
@[simp] theorem rxReset_txPtr (s : State) : (rxReset s).txPtr = s.txPtr := rfl
@[simp] theorem rxReset_txValid (s : State) : (rxReset s).txValid = s.txValid := rfl
@[simp] theorem rxReset_rxbuf (s : State) : (rxReset s).rxbuf = [] := rfl
@[simp] theorem rxReset_rxLen (s : State) : (rxReset s).rxLen = 0 := rfl
@[simp] theorem rxReset_rxOvf (s : State) : (rxReset s).rxOvf = false := rfl
@[simp] theorem rxReset_strictCrc (s : State) : (rxReset s).strictCrc = s.strictCrc := rfl
@[simp] theorem rxReset_expected (s : State) : (rxReset s).expected = 0 := rfl
@[simp] theorem rxReset_decStatus (s : State) : (rxReset s).decStatus = .none := rfl
@[simp] theorem rxReset_rspAddr (s : State) : (rxReset s).rspAddr = 0 := rfl
@[simp] theorem rxReset_rspFunc (s : State) : (rxReset s).rspFunc = 0 := rfl
@[simp] theorem rxReset_byteCount (s : State) : (rxReset s).byteCount = 0 := rfl
@[simp] theorem rxReset_regCount (s : State) : (rxReset s).regCount = 0 := rfl
@[simp] theorem rxReset_regs (s : State) : (rxReset s).regs = [] := rfl
@[simp] theorem rxReset_excCode (s : State) : (rxReset s).excCode = 0 := rfl
@[simp] theorem rxReset_msgId (s : State) : (rxReset s).msgId = 0 := rfl
@[simp] theorem rxReset_crcRcvd (s : State) : (rxReset s).crcRcvd = 0 := rfl
@[simp] theorem rxReset_crcCalc (s : State) : (rxReset s).crcCalc = 0 := rfl
@[simp] theorem rxReset_crcOk (s : State) : (rxReset s).crcOk = false := rfl
@[simp] theorem rxReset_countOk (s : State) : (rxReset s).countOk = false := rfl
@[simp] theorem rxReset_inbox (s : State) : (rxReset s).inbox = s.inbox := rfl
@[simp] theorem rxReset_replies (s : State) : (rxReset s).replies = .done :: s.replies := rfl

/-! ### State.resetBlock -/

@[simp] theorem State.resetBlock_crcAcc (s : State) : (s.resetBlock).crcAcc = Config.crcInit := rfl
@[simp] theorem State.resetBlock_txbuf (s : State) : (s.resetBlock).txbuf = [] := rfl
@[simp] theorem State.resetBlock_txPtr (s : State) : (s.resetBlock).txPtr = 0 := rfl
@[simp] theorem State.resetBlock_txValid (s : State) : (s.resetBlock).txValid = false := rfl
@[simp] theorem State.resetBlock_rxbuf (s : State) : (s.resetBlock).rxbuf = [] := rfl
@[simp] theorem State.resetBlock_rxLen (s : State) : (s.resetBlock).rxLen = 0 := rfl
@[simp] theorem State.resetBlock_rxOvf (s : State) : (s.resetBlock).rxOvf = false := rfl
@[simp] theorem State.resetBlock_strictCrc (s : State) : (s.resetBlock).strictCrc = false := rfl
@[simp] theorem State.resetBlock_expected (s : State) : (s.resetBlock).expected = 0 := rfl
@[simp] theorem State.resetBlock_decStatus (s : State) : (s.resetBlock).decStatus = .none := rfl
@[simp] theorem State.resetBlock_rspAddr (s : State) : (s.resetBlock).rspAddr = 0 := rfl
@[simp] theorem State.resetBlock_rspFunc (s : State) : (s.resetBlock).rspFunc = 0 := rfl
@[simp] theorem State.resetBlock_byteCount (s : State) : (s.resetBlock).byteCount = 0 := rfl
@[simp] theorem State.resetBlock_regCount (s : State) : (s.resetBlock).regCount = 0 := rfl
@[simp] theorem State.resetBlock_regs (s : State) : (s.resetBlock).regs = [] := rfl
@[simp] theorem State.resetBlock_excCode (s : State) : (s.resetBlock).excCode = 0 := rfl
@[simp] theorem State.resetBlock_msgId (s : State) : (s.resetBlock).msgId = 0 := rfl
@[simp] theorem State.resetBlock_crcRcvd (s : State) : (s.resetBlock).crcRcvd = 0 := rfl
@[simp] theorem State.resetBlock_crcCalc (s : State) : (s.resetBlock).crcCalc = 0 := rfl
@[simp] theorem State.resetBlock_crcOk (s : State) : (s.resetBlock).crcOk = false := rfl
@[simp] theorem State.resetBlock_countOk (s : State) : (s.resetBlock).countOk = false := rfl
@[simp] theorem State.resetBlock_inbox (s : State) : (s.resetBlock).inbox = s.inbox := rfl
@[simp] theorem State.resetBlock_replies (s : State) : (s.resetBlock).replies = s.replies := rfl

/-! ### setCrc -/

@[simp] theorem setCrc_crcAcc (a : Word) (s : State) : (setCrc a s).crcAcc = a := rfl
@[simp] theorem setCrc_txbuf (a : Word) (s : State) : (setCrc a s).txbuf = s.txbuf := rfl
@[simp] theorem setCrc_txPtr (a : Word) (s : State) : (setCrc a s).txPtr = s.txPtr := rfl
@[simp] theorem setCrc_txValid (a : Word) (s : State) : (setCrc a s).txValid = s.txValid := rfl
@[simp] theorem setCrc_rxbuf (a : Word) (s : State) : (setCrc a s).rxbuf = s.rxbuf := rfl
@[simp] theorem setCrc_rxLen (a : Word) (s : State) : (setCrc a s).rxLen = s.rxLen := rfl
@[simp] theorem setCrc_rxOvf (a : Word) (s : State) : (setCrc a s).rxOvf = s.rxOvf := rfl
@[simp] theorem setCrc_strictCrc (a : Word) (s : State) : (setCrc a s).strictCrc = s.strictCrc := rfl
@[simp] theorem setCrc_expected (a : Word) (s : State) : (setCrc a s).expected = s.expected := rfl
@[simp] theorem setCrc_decStatus (a : Word) (s : State) : (setCrc a s).decStatus = s.decStatus := rfl
@[simp] theorem setCrc_rspAddr (a : Word) (s : State) : (setCrc a s).rspAddr = s.rspAddr := rfl
@[simp] theorem setCrc_rspFunc (a : Word) (s : State) : (setCrc a s).rspFunc = s.rspFunc := rfl
@[simp] theorem setCrc_byteCount (a : Word) (s : State) : (setCrc a s).byteCount = s.byteCount := rfl
@[simp] theorem setCrc_regCount (a : Word) (s : State) : (setCrc a s).regCount = s.regCount := rfl
@[simp] theorem setCrc_regs (a : Word) (s : State) : (setCrc a s).regs = s.regs := rfl
@[simp] theorem setCrc_excCode (a : Word) (s : State) : (setCrc a s).excCode = s.excCode := rfl
@[simp] theorem setCrc_msgId (a : Word) (s : State) : (setCrc a s).msgId = s.msgId := rfl
@[simp] theorem setCrc_crcRcvd (a : Word) (s : State) : (setCrc a s).crcRcvd = s.crcRcvd := rfl
@[simp] theorem setCrc_crcCalc (a : Word) (s : State) : (setCrc a s).crcCalc = s.crcCalc := rfl
@[simp] theorem setCrc_crcOk (a : Word) (s : State) : (setCrc a s).crcOk = s.crcOk := rfl
@[simp] theorem setCrc_countOk (a : Word) (s : State) : (setCrc a s).countOk = s.countOk := rfl
@[simp] theorem setCrc_inbox (a : Word) (s : State) : (setCrc a s).inbox = s.inbox := rfl
@[simp] theorem setCrc_replies (a : Word) (s : State) : (setCrc a s).replies = .done :: s.replies := rfl

/-! ### txBuild -/

@[simp] theorem txBuild_crcAcc (a f : Byte) (st n : Word) (s : State) : (txBuild a f st n s).crcAcc = s.crcAcc := rfl
@[simp] theorem txBuild_txbuf (a f : Byte) (st n : Word) (s : State) : (txBuild a f st n s).txbuf = s.txbuf.writeBytes 0 (buildRequest a f st n) := rfl
@[simp] theorem txBuild_txPtr (a f : Byte) (st n : Word) (s : State) : (txBuild a f st n s).txPtr = 0 := rfl
@[simp] theorem txBuild_txValid (a f : Byte) (st n : Word) (s : State) : (txBuild a f st n s).txValid = true := rfl
@[simp] theorem txBuild_rxbuf (a f : Byte) (st n : Word) (s : State) : (txBuild a f st n s).rxbuf = s.rxbuf := rfl
@[simp] theorem txBuild_rxLen (a f : Byte) (st n : Word) (s : State) : (txBuild a f st n s).rxLen = s.rxLen := rfl
@[simp] theorem txBuild_rxOvf (a f : Byte) (st n : Word) (s : State) : (txBuild a f st n s).rxOvf = s.rxOvf := rfl
@[simp] theorem txBuild_strictCrc (a f : Byte) (st n : Word) (s : State) : (txBuild a f st n s).strictCrc = s.strictCrc := rfl
@[simp] theorem txBuild_expected (a f : Byte) (st n : Word) (s : State) : (txBuild a f st n s).expected = s.expected := rfl
@[simp] theorem txBuild_decStatus (a f : Byte) (st n : Word) (s : State) : (txBuild a f st n s).decStatus = s.decStatus := rfl
@[simp] theorem txBuild_rspAddr (a f : Byte) (st n : Word) (s : State) : (txBuild a f st n s).rspAddr = s.rspAddr := rfl
@[simp] theorem txBuild_rspFunc (a f : Byte) (st n : Word) (s : State) : (txBuild a f st n s).rspFunc = s.rspFunc := rfl
@[simp] theorem txBuild_byteCount (a f : Byte) (st n : Word) (s : State) : (txBuild a f st n s).byteCount = s.byteCount := rfl
@[simp] theorem txBuild_regCount (a f : Byte) (st n : Word) (s : State) : (txBuild a f st n s).regCount = s.regCount := rfl
@[simp] theorem txBuild_regs (a f : Byte) (st n : Word) (s : State) : (txBuild a f st n s).regs = s.regs := rfl
@[simp] theorem txBuild_excCode (a f : Byte) (st n : Word) (s : State) : (txBuild a f st n s).excCode = s.excCode := rfl
@[simp] theorem txBuild_msgId (a f : Byte) (st n : Word) (s : State) : (txBuild a f st n s).msgId = s.msgId := rfl
@[simp] theorem txBuild_crcRcvd (a f : Byte) (st n : Word) (s : State) : (txBuild a f st n s).crcRcvd = s.crcRcvd := rfl
@[simp] theorem txBuild_crcCalc (a f : Byte) (st n : Word) (s : State) : (txBuild a f st n s).crcCalc = s.crcCalc := rfl
@[simp] theorem txBuild_crcOk (a f : Byte) (st n : Word) (s : State) : (txBuild a f st n s).crcOk = s.crcOk := rfl
@[simp] theorem txBuild_countOk (a f : Byte) (st n : Word) (s : State) : (txBuild a f st n s).countOk = s.countOk := rfl
@[simp] theorem txBuild_inbox (a f : Byte) (st n : Word) (s : State) : (txBuild a f st n s).inbox = s.inbox := rfl
@[simp] theorem txBuild_replies (a f : Byte) (st n : Word) (s : State) : (txBuild a f st n s).replies = .done :: s.replies := rfl

/-! ### parseOk -/

@[simp] theorem parseOk_crcAcc (s : State) (n : Nat) (regs : List Word) : (parseOk s n regs).crcAcc = s.crcAcc := rfl
@[simp] theorem parseOk_txbuf (s : State) (n : Nat) (regs : List Word) : (parseOk s n regs).txbuf = s.txbuf := rfl
@[simp] theorem parseOk_txPtr (s : State) (n : Nat) (regs : List Word) : (parseOk s n regs).txPtr = s.txPtr := rfl
@[simp] theorem parseOk_txValid (s : State) (n : Nat) (regs : List Word) : (parseOk s n regs).txValid = s.txValid := rfl
@[simp] theorem parseOk_rxbuf (s : State) (n : Nat) (regs : List Word) : (parseOk s n regs).rxbuf = s.rxbuf := rfl
@[simp] theorem parseOk_rxLen (s : State) (n : Nat) (regs : List Word) : (parseOk s n regs).rxLen = s.rxLen := rfl
@[simp] theorem parseOk_rxOvf (s : State) (n : Nat) (regs : List Word) : (parseOk s n regs).rxOvf = s.rxOvf := rfl
@[simp] theorem parseOk_strictCrc (s : State) (n : Nat) (regs : List Word) : (parseOk s n regs).strictCrc = s.strictCrc := rfl
@[simp] theorem parseOk_expected (s : State) (n : Nat) (regs : List Word) : (parseOk s n regs).expected = s.expected := rfl
@[simp] theorem parseOk_decStatus (s : State) (n : Nat) (regs : List Word) : (parseOk s n regs).decStatus = .ok := rfl
@[simp] theorem parseOk_rspAddr (s : State) (n : Nat) (regs : List Word) : (parseOk s n regs).rspAddr = s.rspAddr := rfl
@[simp] theorem parseOk_rspFunc (s : State) (n : Nat) (regs : List Word) : (parseOk s n regs).rspFunc = s.rspFunc := rfl
@[simp] theorem parseOk_byteCount (s : State) (n : Nat) (regs : List Word) : (parseOk s n regs).byteCount = s.byteCount := rfl
@[simp] theorem parseOk_regCount (s : State) (n : Nat) (regs : List Word) : (parseOk s n regs).regCount = BitVec.ofNat 7 n := rfl
@[simp] theorem parseOk_regs (s : State) (n : Nat) (regs : List Word) : (parseOk s n regs).regs = regs := rfl
@[simp] theorem parseOk_excCode (s : State) (n : Nat) (regs : List Word) : (parseOk s n regs).excCode = s.excCode := rfl
@[simp] theorem parseOk_msgId (s : State) (n : Nat) (regs : List Word) : (parseOk s n regs).msgId = s.msgId := rfl
@[simp] theorem parseOk_crcRcvd (s : State) (n : Nat) (regs : List Word) : (parseOk s n regs).crcRcvd = s.crcRcvd := rfl
@[simp] theorem parseOk_crcCalc (s : State) (n : Nat) (regs : List Word) : (parseOk s n regs).crcCalc = s.crcCalc := rfl
@[simp] theorem parseOk_crcOk (s : State) (n : Nat) (regs : List Word) : (parseOk s n regs).crcOk = s.crcOk := rfl
@[simp] theorem parseOk_countOk (s : State) (n : Nat) (regs : List Word) : (parseOk s n regs).countOk = countMeets n s.expected := rfl
@[simp] theorem parseOk_inbox (s : State) (n : Nat) (regs : List Word) : (parseOk s n regs).inbox = s.inbox := rfl
@[simp] theorem parseOk_replies (s : State) (n : Nat) (regs : List Word) : (parseOk s n regs).replies = .ok n :: s.replies := rfl

/-! ### State.withInput -/

@[simp] theorem State.withInput_crcAcc (s : State) (x : Input) : (s.withInput x).crcAcc = s.crcAcc := rfl
@[simp] theorem State.withInput_txbuf (s : State) (x : Input) : (s.withInput x).txbuf = s.txbuf := rfl
@[simp] theorem State.withInput_txPtr (s : State) (x : Input) : (s.withInput x).txPtr = s.txPtr := rfl
@[simp] theorem State.withInput_txValid (s : State) (x : Input) : (s.withInput x).txValid = s.txValid := rfl
@[simp] theorem State.withInput_rxbuf (s : State) (x : Input) : (s.withInput x).rxbuf = s.rxbuf := rfl
@[simp] theorem State.withInput_rxLen (s : State) (x : Input) : (s.withInput x).rxLen = s.rxLen := rfl
@[simp] theorem State.withInput_rxOvf (s : State) (x : Input) : (s.withInput x).rxOvf = s.rxOvf := rfl
@[simp] theorem State.withInput_strictCrc (s : State) (x : Input) : (s.withInput x).strictCrc = s.strictCrc := rfl
@[simp] theorem State.withInput_expected (s : State) (x : Input) : (s.withInput x).expected = s.expected := rfl
@[simp] theorem State.withInput_decStatus (s : State) (x : Input) : (s.withInput x).decStatus = s.decStatus := rfl
@[simp] theorem State.withInput_rspAddr (s : State) (x : Input) : (s.withInput x).rspAddr = s.rspAddr := rfl
@[simp] theorem State.withInput_rspFunc (s : State) (x : Input) : (s.withInput x).rspFunc = s.rspFunc := rfl
@[simp] theorem State.withInput_byteCount (s : State) (x : Input) : (s.withInput x).byteCount = s.byteCount := rfl
@[simp] theorem State.withInput_regCount (s : State) (x : Input) : (s.withInput x).regCount = s.regCount := rfl
@[simp] theorem State.withInput_regs (s : State) (x : Input) : (s.withInput x).regs = s.regs := rfl
@[simp] theorem State.withInput_excCode (s : State) (x : Input) : (s.withInput x).excCode = s.excCode := rfl
@[simp] theorem State.withInput_msgId (s : State) (x : Input) : (s.withInput x).msgId = s.msgId := rfl
@[simp] theorem State.withInput_crcRcvd (s : State) (x : Input) : (s.withInput x).crcRcvd = s.crcRcvd := rfl
@[simp] theorem State.withInput_crcCalc (s : State) (x : Input) : (s.withInput x).crcCalc = s.crcCalc := rfl
@[simp] theorem State.withInput_crcOk (s : State) (x : Input) : (s.withInput x).crcOk = s.crcOk := rfl
@[simp] theorem State.withInput_countOk (s : State) (x : Input) : (s.withInput x).countOk = s.countOk := rfl
@[simp] theorem State.withInput_inbox (s : State) (x : Input) : (s.withInput x).inbox = x :: s.inbox := rfl
@[simp] theorem State.withInput_replies (s : State) (x : Input) : (s.withInput x).replies = s.replies := rfl

end Sys2Proof.Machine
end

