-- ==== Sys2Proof/Laws/Ops.lean ====
section
/-! SUPPORT. For each shared operation, one lemma that says everything it can do; and how lists of instructions run. -/

namespace Sys2Proof.Machine

/-! ### System registers -/

theorem csr_number_cases : ∀ r : Byte, r ≤ 0x0D →
    r = 0x00 ∨ r = 0x01 ∨ r = 0x02 ∨ r = 0x03 ∨ r = 0x04 ∨ r = 0x05 ∨ r = 0x06 ∨ r = 0x07 ∨ r = 0x08 ∨ r = 0x09 ∨
    r = 0x0A ∨ r = 0x0B ∨ r = 0x0C ∨ r = 0x0D := by decide

theorem csrRead_above (s : State) (r : Byte) (h : 0x0D < r) : csrRead s r = none := by
  have hne : ∀ k : Byte, k ≤ 0x0D → r ≠ k := fun k hk he => by bv_omega
  simp only [csrRead, hne 0x00 (by decide), hne 0x01 (by decide), hne 0x02 (by decide), hne 0x03 (by decide),
    hne 0x04 (by decide), hne 0x05 (by decide), hne 0x06 (by decide), hne 0x07 (by decide), hne 0x08 (by decide),
    hne 0x09 (by decide), hne 0x0A (by decide), hne 0x0B (by decide), hne 0x0C (by decide), hne 0x0D (by decide),
    if_false]

theorem csrRead_upTo (s : State) (r : Byte) (h : r ≤ 0x0D) : ∃ v, csrRead s r = some v := by
  rcases csr_number_cases r h with rfl | rfl | rfl | rfl | rfl | rfl | rfl | rfl | rfl | rfl | rfl | rfl | rfl | rfl <;>
    exact ⟨_, rfl⟩

/-- SYS.RD: the register, or a refusal above 0x0D. -/
theorem sysRead_cases (r : Byte) (s : State) :
    (r ≤ 0x0D ∧ ∃ v, csrRead s r = some v ∧ sysRead r s = s.log (.value v)) ∨
    (0x0D < r ∧ csrRead s r = none ∧ sysRead r s = refuse .badRegister s) := by
  unfold sysRead
  by_cases h : r ≤ 0x0D
  · obtain ⟨v, hv⟩ := csrRead_upTo s r h
    exact .inl ⟨h, v, hv, by rw [hv]⟩
  · have h' : 0x0D < r := by simpa using h
    exact .inr ⟨h', csrRead_above s r h', by rw [csrRead_above s r h']⟩

/-- SYS.WR: the two refusals in their order, or the write of bit 0. -/
theorem sysWrite_cases (r : Byte) (v : Word) (s : State) :
    (0x0D < r ∧ sysWrite r v s = refuse .badRegister s) ∨
    (0x00 < r ∧ r ≤ 0x0D ∧ sysWrite r v s = refuse .readOnly s) ∨
    (r = 0x00 ∧ sysWrite r v s = { s with strictCrc := v.getLsbD 0 }.log .done) := by
  unfold sysWrite
  split
  · exact .inl ⟨‹_›, rfl⟩
  · rename_i h
    have h' : r ≤ 0x0D := by simpa [Config.csrMax] using h
    split
    · rename_i h0
      refine .inr (.inl ⟨?_, h', rfl⟩)
      bv_omega
    · rename_i h0
      exact .inr (.inr ⟨by simpa using h0, rfl⟩)

/-! ### The transmit buffer -/

/-- TX.POP: refused with nothing pending, else the byte at the pointer. -/
theorem txTake_cases (s : State) :
    (s.txValid = false ∧ txTake s = refuse .txEmpty s) ∨
    (s.txValid = true ∧ txTake s = { s with txPtr := s.txPtr + 1, txValid := decide (s.txPtr + 1 ≠ 8) }.log
      (.value (zext16 (s.txbuf.read s.txPtr.toNat)))) := by
  unfold txTake
  split
  · exact .inl ⟨‹_›, rfl⟩
  · rename_i h
    have h' : s.txValid = true := by simpa using h
    refine .inr ⟨h', ?_⟩
    by_cases h8 : s.txPtr + 1 = 8 <;> simp [h']

theorem txbuf_of_txTake (s : State) : (txTake s).txbuf = s.txbuf := by
  obtain ⟨-, h⟩ | ⟨-, h⟩ := txTake_cases s <;> rw [h] <;> rfl

/-! ### The receive buffer -/

/-- RX.PUSH: the byte at RX_LEN, or the overflow flag. -/
theorem rxAppend_cases (b : Byte) (s : State) :
    (s.rxLen.toNat < 260 ∧ (s.rxLen + 1).toNat = s.rxLen.toNat + 1 ∧
      rxAppend b s = { s with rxbuf := s.rxbuf.write s.rxLen.toNat b, rxLen := s.rxLen + 1 }.log .done) ∨
    (260 ≤ s.rxLen.toNat ∧ rxAppend b s = { s with rxOvf := true }.log .done) := by
  unfold rxAppend
  split
  · rename_i h
    have h' : s.rxLen.toNat < 260 := h
    exact .inl ⟨h', by bv_omega, rfl⟩
  · rename_i h
    exact .inr ⟨Nat.le_of_not_lt h, rfl⟩

/-- Pushing bytes into a buffer with room for `k` more. -/
theorem rxAppendAll_spec (bytes : List Byte) (s : State) :
    (rxAppendAll bytes s).rxLen.toNat = (if s.rxLen.toNat ≤ 260 then min (s.rxLen.toNat + bytes.length) 260 else s.rxLen.toNat) ∧
    (∀ a, (rxAppendAll bytes s).rxbuf.read a =
      if s.rxLen.toNat ≤ a ∧ a < s.rxLen.toNat + bytes.length ∧ a < 260 then bytes.getD (a - s.rxLen.toNat) 0
      else s.rxbuf.read a) ∧
    (rxAppendAll bytes s).rxOvf = (s.rxOvf || (decide (260 < s.rxLen.toNat + bytes.length) && decide (bytes ≠ []))) ∧
    rxAppendAll bytes s = { s with
      rxbuf := (rxAppendAll bytes s).rxbuf, rxLen := (rxAppendAll bytes s).rxLen, rxOvf := (rxAppendAll bytes s).rxOvf,
      replies := List.replicate bytes.length .done ++ s.replies } := by
  induction bytes generalizing s with
  | nil =>
    refine ⟨?_, ?_, by simp [rxAppendAll], rfl⟩
    · simp only [rxAppendAll, List.length_nil, Nat.add_zero]
      split <;> omega
    · intro a
      rw [if_neg (by simp only [List.length_nil]; omega)]
      rfl
  | cons b bytes ih =>
    obtain ⟨i1, i2, i3, i4⟩ := ih (rxAppend b s)
    have hrep : List.replicate bytes.length Reply.done ++ Reply.done :: s.replies =
        List.replicate (bytes.length + 1) .done ++ s.replies := by
      rw [List.replicate_succ', List.append_assoc]
      rfl
    obtain ⟨hl, hp, h⟩ | ⟨hl, h⟩ := rxAppend_cases b s
    · have t1 : (rxAppend b s).rxLen.toNat = s.rxLen.toNat + 1 := by rw [h]; exact hp
      have t2 : (rxAppend b s).rxbuf = s.rxbuf.write s.rxLen.toNat b := by rw [h]; rfl
      have t3 : (rxAppend b s).rxOvf = s.rxOvf := by rw [h]; rfl
      rw [t1] at i1
      simp only [t1, t2, Memory.read_write] at i2
      rw [t1, t3] at i3
      rw [rxAppendAll, List.length_cons]
      refine ⟨?_, ?_, ?_, ?_⟩
      · rw [i1]
        split <;> split <;> omega
      · intro a
        rw [i2]
        by_cases h1 : a = s.rxLen.toNat
        · have : ¬ (s.rxLen.toNat + 1 ≤ a ∧ a < s.rxLen.toNat + 1 + bytes.length ∧ a < 260) := by omega
          rw [if_neg this, if_pos h1, if_pos (by omega), h1]
          simp
        · by_cases h2 : s.rxLen.toNat + 1 ≤ a ∧ a < s.rxLen.toNat + 1 + bytes.length ∧ a < 260
          · rw [if_pos h2, if_pos (by omega), show a - s.rxLen.toNat = (a - (s.rxLen.toNat + 1)) + 1 by omega,
              List.getD_cons_succ]
          · rw [if_neg h2, if_neg h1, if_neg (by omega)]
      · rw [i3]
        congr 1
        cases bytes with
        | nil => simp; omega
        | cons c bytes => simp; omega
      · rw [i4, h]
        simp only [State.log_replies, hrep]
        rfl
    · have t1 : (rxAppend b s).rxLen = s.rxLen := by rw [h]; rfl
      have t2 : (rxAppend b s).rxbuf = s.rxbuf := by rw [h]; rfl
      have t3 : (rxAppend b s).rxOvf = true := by rw [h]; rfl
      rw [t1] at i1
      simp only [t1, t2] at i2
      rw [t1, t3] at i3
      rw [rxAppendAll, List.length_cons]
      refine ⟨?_, ?_, ?_, ?_⟩
      · rw [i1]
        split <;> omega
      · intro a
        rw [i2, if_neg (by omega), if_neg (by omega)]
      · rw [i3]
        have : 260 < s.rxLen.toNat + (bytes.length + 1) := by omega
        simp [this]
      · rw [i4, h]
        simp only [State.log_replies, hrep]
        rfl

/-! ### Parsing -/

/-- The state in which DEC.PARSE looks at the frame: results cleared, address and function code recorded. -/
def parseStart (e : Word) (s : State) : State :=
  { s.clearResults e with rspAddr := s.rxbuf.read 0, rspFunc := s.rxbuf.read 1 }

/-- DEC.PARSE takes exactly one of these five ways, in the order of its steps. -/
theorem parse_cases (e : Word) (s : State) :
    let bc := (s.rxbuf.read 2).toNat
    let rcvd := le16 (s.rxbuf.read (3 + bc)) (s.rxbuf.read (3 + bc + 1))
    let computed := crc16 (s.rxbuf.readBytes 0 (3 + bc))
    let judged : State := { parseStart e s with
      byteCount := s.rxbuf.read 2, crcCalc := computed, crcRcvd := rcvd, crcOk := crcMatches rcvd computed }
    (s.rxLen.toNat < 5 ∧ parse e s = raise .shortResponse (s.clearResults e)) ∨
    (5 ≤ s.rxLen.toNat ∧ errorBit (s.rxbuf.read 1) = true ∧ parse e s = parseError (parseStart e s)) ∨
    (5 ≤ s.rxLen.toNat ∧ errorBit (s.rxbuf.read 1) = false ∧ s.rxLen.toNat < 3 + bc + 2 ∧
      parse e s = raise .shortResponse { parseStart e s with byteCount := s.rxbuf.read 2 }) ∨
    (5 ≤ s.rxLen.toNat ∧ errorBit (s.rxbuf.read 1) = false ∧ 3 + bc + 2 ≤ s.rxLen.toNat ∧
      (s.strictCrc = true ∧ rcvd ≠ computed) ∧ parse e s = raise .crcMismatch judged) ∨
    (5 ≤ s.rxLen.toNat ∧ errorBit (s.rxbuf.read 1) = false ∧ 3 + bc + 2 ≤ s.rxLen.toNat ∧
      ¬ (s.strictCrc = true ∧ rcvd ≠ computed) ∧
      parse e s = parseOk judged (bc / 2)
        ((List.range (bc / 2)).map fun k => be16 (s.rxbuf.read (3 + 2 * k)) (s.rxbuf.read (3 + 2 * k + 1)))) := by
  intro bc rcvd computed judged
  by_cases h5 : s.rxLen.toNat < 5
  · exact .inl ⟨h5, by simp only [parse, Config.rspMinLen, h5, if_true]⟩
  · have h5' : 5 ≤ s.rxLen.toNat := Nat.le_of_not_lt h5
    have hp : parse e s = parseHeader (s.clearResults e) := by simp only [parse, Config.rspMinLen, h5, if_false]
    by_cases he : errorBit (s.rxbuf.read 1) = true
    · refine .inr (.inl ⟨h5', he, ?_⟩)
      rw [hp]
      simp only [parseHeader, State.clearResults_rxbuf, he, if_true]
      rfl
    · have he' : errorBit (s.rxbuf.read 1) = false := by simpa using he
      have hn : parse e s = parseNormal (parseStart e s) := by
        rw [hp]
        simp only [parseHeader, State.clearResults_rxbuf, he', if_false, Bool.false_eq_true]
        rfl
      by_cases hl : s.rxLen.toNat < 3 + bc + 2
      · refine .inr (.inr (.inl ⟨h5', he', hl, ?_⟩))
        rw [hn]
        simp only [parseNormal]
        exact if_pos hl
      · have hj : parse e s = parseJudge { parseStart e s with byteCount := s.rxbuf.read 2 } bc := by
          rw [hn]
          simp only [parseNormal]
          exact if_neg hl
        by_cases hm : s.strictCrc = true ∧ rcvd ≠ computed
        · refine .inr (.inr (.inr (.inl ⟨h5', he', Nat.le_of_not_lt hl, hm, ?_⟩)))
          rw [hj]
          simp only [parseJudge]
          exact if_pos hm
        · refine .inr (.inr (.inr (.inr ⟨h5', he', Nat.le_of_not_lt hl, hm, ?_⟩)))
          rw [hj]
          simp only [parseJudge]
          exact if_neg hm

/-- What no way of DEC.PARSE changes, and that it gives one reply, which is no refusal. -/
theorem parse_frame (e : Word) (s : State) :
    (parse e s).crcAcc = s.crcAcc ∧ (parse e s).txbuf = s.txbuf ∧ (parse e s).txPtr = s.txPtr ∧
    (parse e s).txValid = s.txValid ∧ (parse e s).rxbuf = s.rxbuf ∧ (parse e s).rxLen = s.rxLen ∧
    (parse e s).rxOvf = s.rxOvf ∧ (parse e s).strictCrc = s.strictCrc ∧ (parse e s).expected = e ∧
    (parse e s).inbox = s.inbox ∧
    ∃ r, (parse e s).replies = r :: s.replies ∧ ∀ q, r ≠ .refused q := by
  obtain ⟨-, h⟩ | ⟨-, -, h⟩ | ⟨-, -, -, h⟩ | ⟨-, -, -, -, h⟩ | ⟨-, -, -, -, h⟩ := parse_cases e s <;> rw [h] <;>
    exact ⟨rfl, rfl, rfl, rfl, rfl, rfl, rfl, rfl, rfl, rfl, _, rfl, by simp⟩

/-! ### Reading results -/

theorem readReg_cases (i : Byte) (s : State) :
    ((s.decStatus ≠ .ok ∨ s.regCount.toNat ≤ i.toNat) ∧ readReg i s = refuse .noData s) ∨
    (s.decStatus = .ok ∧ i.toNat < s.regCount.toNat ∧ readReg i s = s.log (.value (s.regs.getD i.toNat 0))) := by
  unfold readReg
  split
  · exact .inl ⟨‹_›, rfl⟩
  · rename_i h
    exact .inr ⟨by_contra fun h' => h (.inl h'), Nat.lt_of_not_le fun h' => h (.inr h'), rfl⟩

theorem readRaw_cases (j : Word) (s : State) :
    (s.rxLen.toNat ≤ j.toNat ∧ readRaw j s = refuse .rawRange s) ∨
    (j.toNat < s.rxLen.toNat ∧ readRaw j s = s.log (.value (zext16 (s.rxbuf.read j.toNat)))) := by
  unfold readRaw
  split
  · exact .inl ⟨‹_›, rfl⟩
  · exact .inr ⟨Nat.lt_of_not_le ‹_›, rfl⟩

/-! ### Lists of instructions -/

@[simp] theorem execAll_nil (s : State) : execAll [] s = .next s := rfl

theorem execAll_cons (i : Instr) (is : List Instr) (s t : State) (h : exec i s = .next t) :
    execAll (i :: is) s = execAll is t := by
  simp only [execAll, h]

theorem execAll_append (p q : List Instr) (s t : State) (h : execAll p s = .next t) :
    execAll (p ++ q) s = execAll q t := by
  induction p generalizing s with
  | nil =>
    simp only [execAll_nil, Host.Outcome.next.injEq] at h
    rw [List.nil_append, h]
  | cons i p ih =>
    rw [List.cons_append]
    simp only [execAll] at h ⊢
    split at h
    · exact ih _ h
    · exact absurd h (by simp)
    · exact absurd h (by simp)

/-- Every instruction answers a next state. -/
theorem exec_next (i : Instr) (s : State) : ∃ t, exec i s = .next t := by
  cases i <;> exact ⟨_, rfl⟩

theorem execAll_next (p : List Instr) (s : State) : ∃ t, execAll p s = .next t := by
  induction p generalizing s with
  | nil => exact ⟨s, rfl⟩
  | cons i p ih =>
    obtain ⟨t, h⟩ := exec_next i s
    rw [execAll_cons i p s t h]
    exact ih t

theorem execAll_rxPush (bytes : List Byte) (s : State) :
    execAll (bytes.map .rxPush) s = .next (rxAppendAll bytes s) := by
  induction bytes generalizing s with
  | nil => rfl
  | cons b bytes ih => exact ih (rxAppend b s)

theorem execAll_txPop (n : Nat) (s : State) : execAll (List.replicate n .txPop) s = .next (txTakeN n s) := by
  induction n generalizing s with
  | zero => rfl
  | succ n ih => exact ih (txTake s)

end Sys2Proof.Machine
end

