-- ==== Sys2Proof/Laws/PerInstr.lean ====
section
/-! SUPPORT. Statements made per instruction. `Encoded`: a command is encoded as a word of its own row of R98's table,
whatever its operands; a wire row is encoded as a frame and never as a command word (spec/30_encoding.md R98, R101). -/

namespace Sys2Proof.Laws

/-- What `Encoded` says of one instruction. -/
def Encoded.Statement (i : Instr) : Prop :=
  match commandMnemonic i with
  | some m => ∃ (w : Word64) (row : CommandRow),
      encode i = .command w ∧ row ∈ commandTable ∧ row.mnemonic = m ∧ row.matches w
  | none => ∀ w : Word64, encode i ≠ .command w

/-- The mask of a CW8 row keeps the opcode and the reserved bits. -/
theorem cw8_masked (op b : Byte) : (op ++ b ++ 0#48) &&& 0xFF00FFFFFFFFFFFF#64 = op ++ 0#56 := by
  apply BitVec.eq_of_getLsbD_eq; intro i hi; rw [BitVec.getLsbD_and]
  simp only [BitVec.getLsbD_append]; interval_cases i <;> simp

/-- The mask of a CW16 row keeps the opcode and the reserved bits. -/
theorem cw16_masked (op : Byte) (e : Word) : (op ++ e ++ 0#40) &&& 0xFF0000FFFFFFFFFF#64 = op ++ 0#56 := by
  apply BitVec.eq_of_getLsbD_eq; intro i hi; rw [BitVec.getLsbD_and]
  simp only [BitVec.getLsbD_append]; interval_cases i <;> simp

/-- The mask of the CW8_16 row keeps the opcode and the reserved bits. -/
theorem cw816_masked (op r : Byte) (v : Word) :
    (op ++ r ++ v ++ 0#32) &&& 0xFF000000FFFFFFFF#64 = op ++ 0#56 := by
  apply BitVec.eq_of_getLsbD_eq; intro i hi; rw [BitVec.getLsbD_and]
  simp only [BitVec.getLsbD_append]; interval_cases i <;> simp

/-- The mask of the CWB row keeps the opcode and the reserved bits. -/
theorem cwB_masked (op a f : Byte) (s n : Word) :
    (op ++ a ++ f ++ s ++ n ++ 0#8) &&& 0xFF000000000000FF#64 = op ++ 0#56 := by
  apply BitVec.eq_of_getLsbD_eq; intro i hi; rw [BitVec.getLsbD_and]
  simp only [BitVec.getLsbD_append]; interval_cases i <;> simp

theorem Encoded.sysReset : Encoded.Statement (.sysReset) :=
  ⟨_, commandTable[0], rfl, List.getElem_mem _, rfl, by decide⟩

theorem Encoded.sysRd (r : Byte) : Encoded.Statement (.sysRd r) :=
  ⟨_, commandTable[1], rfl, List.getElem_mem _, rfl, cw8_masked _ _⟩

theorem Encoded.sysWr (r : Byte) (v : Word) : Encoded.Statement (.sysWr r v) :=
  ⟨_, commandTable[2], rfl, List.getElem_mem _, rfl, cw816_masked _ _ _⟩

theorem Encoded.crcInit : Encoded.Statement (.crcInit) :=
  ⟨_, commandTable[3], rfl, List.getElem_mem _, rfl, by decide⟩

theorem Encoded.crcXorb (b : Byte) : Encoded.Statement (.crcXorb b) :=
  ⟨_, commandTable[4], rfl, List.getElem_mem _, rfl, cw8_masked _ _⟩

theorem Encoded.crcShift : Encoded.Statement (.crcShift) :=
  ⟨_, commandTable[5], rfl, List.getElem_mem _, rfl, by decide⟩

theorem Encoded.crcByte (b : Byte) : Encoded.Statement (.crcByte b) :=
  ⟨_, commandTable[6], rfl, List.getElem_mem _, rfl, cw8_masked _ _⟩

theorem Encoded.crcRead : Encoded.Statement (.crcRead) :=
  ⟨_, commandTable[7], rfl, List.getElem_mem _, rfl, by decide⟩

theorem Encoded.encBuild (a f : Byte) (s n : Word) : Encoded.Statement (.encBuild a f s n) :=
  ⟨_, commandTable[8], rfl, List.getElem_mem _, rfl, cwB_masked _ _ _ _ _⟩

theorem Encoded.txPop : Encoded.Statement (.txPop) :=
  ⟨_, commandTable[9], rfl, List.getElem_mem _, rfl, by decide⟩

theorem Encoded.rxClear : Encoded.Statement (.rxClear) :=
  ⟨_, commandTable[10], rfl, List.getElem_mem _, rfl, by decide⟩

theorem Encoded.rxPush (b : Byte) : Encoded.Statement (.rxPush b) :=
  ⟨_, commandTable[11], rfl, List.getElem_mem _, rfl, cw8_masked _ _⟩

theorem Encoded.decParse (e : Word) : Encoded.Statement (.decParse e) :=
  ⟨_, commandTable[12], rfl, List.getElem_mem _, rfl, cw16_masked _ _⟩

theorem Encoded.decRdreg (i : Byte) : Encoded.Statement (.decRdreg i) :=
  ⟨_, commandTable[13], rfl, List.getElem_mem _, rfl, cw8_masked _ _⟩

theorem Encoded.decRdraw (j : Word) : Encoded.Statement (.decRdraw j) :=
  ⟨_, commandTable[14], rfl, List.getElem_mem _, rfl, cw16_masked _ _⟩

theorem Encoded.req (a f : Byte) (s n : Word) (l h : Byte) :
    Encoded.Statement (.req a f s n l h) := fun _ h => nomatch h

theorem Encoded.reqF03 (a : Byte) (s n : Word) (l h : Byte) :
    Encoded.Statement (.reqF03 a s n l h) := fun _ h => nomatch h

theorem Encoded.rspN (x : Word) (a f bc : Byte) (payload : List Byte) (l h : Byte) :
    Encoded.Statement (.rspN x a f bc payload l h) := fun _ h => nomatch h

theorem Encoded.rspNF03 (x : Word) (a bc : Byte) (payload : List Byte) (l h : Byte) :
    Encoded.Statement (.rspNF03 x a bc payload l h) := fun _ h => nomatch h

theorem Encoded.rspE (x : Word) (a f e l h : Byte) :
    Encoded.Statement (.rspE x a f e l h) := fun _ h => nomatch h

theorem Encoded.rspEF83 (x : Word) (a e l h : Byte) :
    Encoded.Statement (.rspEF83 x a e l h) := fun _ h => nomatch h

theorem Encoded.exc01 (x : Word) (a f l h : Byte) :
    Encoded.Statement (.exc01 x a f l h) := fun _ h => nomatch h

theorem Encoded.exc02 (x : Word) (a f l h : Byte) :
    Encoded.Statement (.exc02 x a f l h) := fun _ h => nomatch h

theorem Encoded.exc03 (x : Word) (a f l h : Byte) :
    Encoded.Statement (.exc03 x a f l h) := fun _ h => nomatch h

theorem Encoded.exc04 (x : Word) (a f l h : Byte) :
    Encoded.Statement (.exc04 x a f l h) := fun _ h => nomatch h

theorem Encoded.exc05 (x : Word) (a f l h : Byte) :
    Encoded.Statement (.exc05 x a f l h) := fun _ h => nomatch h

theorem Encoded.exc06 (x : Word) (a f l h : Byte) :
    Encoded.Statement (.exc06 x a f l h) := fun _ h => nomatch h

theorem Encoded.exc08 (x : Word) (a f l h : Byte) :
    Encoded.Statement (.exc08 x a f l h) := fun _ h => nomatch h

theorem Encoded.exc0A (x : Word) (a f l h : Byte) :
    Encoded.Statement (.exc0A x a f l h) := fun _ h => nomatch h

theorem Encoded.exc0B (x : Word) (a f l h : Byte) :
    Encoded.Statement (.exc0B x a f l h) := fun _ h => nomatch h

theorem Encoded.excUnknown (x : Word) (a f e l h : Byte) :
    Encoded.Statement (.excUnknown x a f e l h) := fun _ h => nomatch h

end Sys2Proof.Laws
end

