-- ==== Sys2Proof/Machine/Assembler.lean ====
section
/-! DEFINITION. The textual form and the pseudo-instructions of spec/30_encoding.md R96. One command a line, operands
separated by commas, numbers decimal or hexadecimal with 0x, byte sequences in braces, a comment from ; to the end of the
line. The pseudo-instructions add nothing to the block. -/

namespace Sys2Proof.Machine

/-- What a line stands for: a straight list of commands, or a pseudo-instruction whose expansion depends on replies
(`DEC.RDALL`) or on the transport (`POLL.*`). -/
inductive Line where
  | commands (is : List Instr)
  | rdAll
  | poll (p : Profile) (a : Byte)
deriving DecidableEq, Repr

/-- An operand: a number, or a byte sequence literal. -/
inductive Operand where
  | number (n : Nat)
  | bytes (bs : List Byte)
deriving DecidableEq, Repr

/-! ### Characters -/

/-- The value of a decimal or hexadecimal digit. -/
def digitOf (c : Char) : Option Nat :=
  let n := c.toNat
  if 48 ≤ n ∧ n ≤ 57 then some (n - 48)
  else if 65 ≤ n ∧ n ≤ 70 then some (n - 55)
  else if 97 ≤ n ∧ n ≤ 102 then some (n - 87)
  else none

/-- The digits of a number in `base`, read onto `acc`. -/
def digitsOf (base : Nat) : Nat → List Char → Option Nat
  | acc, [] => some acc
  | acc, c :: cs =>
    match digitOf c with
    | some d => if d < base then digitsOf base (acc * base + d) cs else none
    | none => none

/-- A number: decimal, or hexadecimal with 0x (R96). -/
def numberOf : List Char → Option Nat
  | [] => none
  | '0' :: 'x' :: c :: cs => digitsOf 16 0 (c :: cs)
  | c :: cs => digitsOf 10 0 (c :: cs)

/-- Space and tab. -/
def isBlank (c : Char) : Bool := c = ' ' || c.toNat = 9

/-- The text before the first `;` (R96). -/
def withoutComment (cs : List Char) : List Char := cs.takeWhile (· ≠ ';')

/-- Blanks removed at both ends. -/
def trimBlanks (cs : List Char) : List Char := ((cs.dropWhile isBlank).reverse.dropWhile isBlank).reverse

/-- The text split at every character that `p` accepts; `cur` is the current piece, reversed. -/
def splitWhere (p : Char → Bool) : List Char → List Char → List (List Char)
  | cur, [] => [cur.reverse]
  | cur, c :: cs => if p c then cur.reverse :: splitWhere p [] cs else splitWhere p (c :: cur) cs

/-- A hexadecimal pair. -/
def pairOf (cs : List Char) : Option Byte :=
  match cs.length, digitsOf 16 0 cs with
  | 2, some n => some (BitVec.ofNat 8 n)
  | _, _ => none

/-- All the values, if every one is there. -/
def allSome {α : Type} : List (Option α) → Option (List α)
  | [] => some []
  | none :: _ => none
  | some a :: os => (allSome os).map (a :: ·)

/-- A byte sequence literal: hexadecimal pairs between the characters 123 and 125, the braces (R96). -/
def bytesLiteral (cs : List Char) : Option (List Byte) :=
  match cs, cs.reverse with
  | c :: rest, d :: _ =>
    if c.toNat = 123 ∧ d.toNat = 125 then
      allSome (((splitWhere isBlank [] rest.dropLast).filter (· ≠ [])).map pairOf)
    else none
  | _, _ => none

/-! ### Operands -/

/-- The CSR names as operands (R96, spec/10_state.md R36). -/
def csrNames : List (String × Nat) := [
  ("CTRL", 0x00), ("STATUS", 0x01), ("CRC_ACC", 0x02), ("TX_PTR", 0x03), ("RX_LEN", 0x04), ("RSP_ADDR", 0x05),
  ("RSP_FUNC", 0x06), ("BYTE_COUNT", 0x07), ("REG_COUNT", 0x08), ("EXC_CODE", 0x09), ("MSG_ID", 0x0A),
  ("CRC_RCVD", 0x0B), ("CRC_CALC", 0x0C), ("EXPECTED", 0x0D)]

/-- One operand. -/
def operandOf (cs : List Char) : Option Operand :=
  match bytesLiteral cs with
  | some bs => some (.bytes bs)
  | none =>
    match numberOf cs with
    | some n => some (.number n)
    | none => (csrNames.find? fun p => p.1.toList = cs).map fun p => .number p.2

/-- The operands of a line: none, or pieces separated by commas. -/
def operandsOf (cs : List Char) : Option (List Operand) :=
  let t := trimBlanks cs
  if t = [] then some []
  else allSome ((splitWhere (· = ',') [] t).map fun piece => operandOf (trimBlanks piece))

/-- An 8-bit operand. -/
def asByte (n : Nat) : Option Byte := if n < 256 then some (BitVec.ofNat 8 n) else none

/-- A 16-bit operand. -/
def asWord (n : Nat) : Option Word := if n < 65536 then some (BitVec.ofNat 16 n) else none

/-! ### Lines -/

/-- The commands and pseudo-instructions of R95 and R96, by mnemonic and operands. -/
def lineOf (mnemonic : String) (ops : List Operand) : Option Line :=
  match mnemonic, ops with
  | "SYS.RESET", [] => some (.commands [.sysReset])
  | "SYS.RD", [.number r] => (asByte r).map fun r => .commands [.sysRd r]
  | "SYS.WR", [.number r, .number v] => (asByte r).bind fun r => (asWord v).map fun v => .commands [.sysWr r v]
  | "CRC.INIT", [] => some (.commands [.crcInit])
  | "CRC.XORB", [.number b] => (asByte b).map fun b => .commands [.crcXorb b]
  | "CRC.SHIFT", [] => some (.commands [.crcShift])
  | "CRC.BYTE", [.number b] => (asByte b).map fun b => .commands [.crcByte b]
  | "CRC.READ", [] => some (.commands [.crcRead])
  | "ENC.BUILD", [.number a, .number f, .number s, .number n] =>
    (asByte a).bind fun a => (asByte f).bind fun f => (asWord s).bind fun s => (asWord n).map fun n =>
      .commands [.encBuild a f s n]
  | "TX.POP", [] => some (.commands [.txPop])
  | "RX.CLEAR", [] => some (.commands [.rxClear])
  | "RX.PUSH", [.number b] => (asByte b).map fun b => .commands [.rxPush b]
  | "DEC.PARSE", [.number e] => (asWord e).map fun e => .commands [.decParse e]
  | "DEC.RDREG", [.number i] => (asByte i).map fun i => .commands [.decRdreg i]
  | "DEC.RDRAW", [.number j] => (asWord j).map fun j => .commands [.decRdraw j]
  | "CRC.SEQ", [.bytes bs] => some (.commands (bs.map .crcByte))
  | "CRC.OF", [.bytes bs] => some (.commands (.crcInit :: bs.map .crcByte ++ [.crcRead]))
  | "TX.POPN", [.number m] => some (.commands (List.replicate m .txPop))
  | "RX.PUSHN", [.bytes bs] => some (.commands (bs.map .rxPush))
  | "RX.LOAD", [.bytes bs] => some (.commands (.rxClear :: bs.map .rxPush))
  | "DEC.RDALL", [] => some .rdAll
  | "CFG.STRICT", [.number v] => if v < 2 then (asWord v).map fun v => .commands [.sysWr 0x00 v] else none
  | "POLL.ENV", [.number a] => (asByte a).map (.poll .env)
  | "POLL.CH8", [.number a] => (asByte a).map (.poll .ch8)
  | "POLL.TH", [.number a] => (asByte a).map (.poll .th)
  | _, _ => none

/-- One line of text: nothing but blanks and a comment is no command. -/
def assembleChars (cs : List Char) : Option Line :=
  let t := trimBlanks (withoutComment cs)
  if t = [] then some (.commands [])
  else (operandsOf (t.dropWhile fun c => !isBlank c)).bind (lineOf (String.ofList (t.takeWhile fun c => !isBlank c)))

/-- One line of text. -/
def assemble (text : String) : Option Line := assembleChars text.toList

/-- `DEC.RDALL` (R96): `SYS.RD REG_COUNT` giving `n`, then `DEC.RDREG 0` to `DEC.RDREG n - 1`. -/
def rdAllCommands (s : State) : List Instr :=
  .sysRd 0x08 :: (List.range s.regCount.toNat).map fun k => .decRdreg (BitVec.ofNat 8 k)

end Sys2Proof.Machine
end

