-- ==== Sys2Proof/Tests/Slice0.lean ====
section
/-! SUPPORT. The model's own tests. Words and frames are written out from the encoding tables of spec/30_encoding.md and
the vectors of spec/95_test_vectors.md; the vector a test comes from is named in its comment. The last part has, for every
statement with hypotheses, a concrete case that meets them (`witness_<statement>`). -/

namespace Sys2Proof.Tests

open Sys2Proof.Machine

/-! ### Helpers -/

/-- The state after a list of instructions. -/
def after (p : List Instr) (s : State) : State :=
  match execAll p s with
  | .next t => t
  | .fault _ => s
  | .refused _ => s

/-- The state after one input of the host. -/
def fed (x : Input) (s : State) : State :=
  match step (s.withInput x) with
  | .next t => t
  | .fault _ => s
  | .refused _ => s

/-- The latest reply. -/
def reply (s : State) : Option Reply := s.replies.head?

/-- A receive buffer with these bytes. -/
def loaded (bytes : List Byte) (s : State) : State := rxAppendAll bytes (rxReset s)

/-- The instruction of an input, if any. -/
def read (x : Input) : Option Instr :=
  match decode x with
  | .ok i => some i
  | .error _ => none

/-- Reset, in strict mode. -/
def strict : State := { State.reset with strictCrc := true }

/-! ### WellFormed refuses -/

theorem test_wf_req_bad_crc : wellFormed (.req 0x01 0x06 0x0001 0x0003 0x98 0x0C) = false := by decide +kernel
theorem test_wf_req_f03_has_its_row : wellFormed (.req 0x01 0x03 0x0001 0x0001 0xD5 0xCA) = false := by decide
theorem test_wf_reqF03_bad_crc : wellFormed (.reqF03 0x01 0x0001 0x0001 0xCA 0xD5) = false := by decide +kernel
theorem test_wf_reqF03_good : wellFormed (.reqF03 0x01 0x0001 0x0001 0xD5 0xCA) = true := by decide +kernel
theorem test_wf_rspN_error_bit : wellFormed (.rspN 0 0x01 0x84 0x00 [] 0 0) = false := by decide
theorem test_wf_rspN_f03_has_its_row : wellFormed (.rspN 0 0x01 0x03 0x00 [] 0 0) = false := by decide
theorem test_wf_rspN_payload_length : wellFormed (.rspN 0 0x01 0x04 0x02 [0x00] 0 0) = false := by decide
theorem test_wf_rspNF03_payload_length : wellFormed (.rspNF03 0 0x01 0x00 [0x00] 0 0) = false := by decide
theorem test_wf_rspE_no_error_bit : wellFormed (.rspE 0 0x01 0x04 0x00 0 0) = false := by decide
theorem test_wf_rspE_f83_has_its_row : wellFormed (.rspE 0 0x01 0x83 0x00 0 0) = false := by decide
theorem test_wf_rspE_listed_code : wellFormed (.rspE 0 0x01 0x84 0x0B 0 0) = false := by decide
theorem test_wf_rspE_right_crc : wellFormed (.rspE 0 0xFF 0xFF 0xFF 0x40 0x40) = false := by decide +kernel
theorem test_wf_rspEF83_listed_code : wellFormed (.rspEF83 0 0x01 0x02 0 0) = false := by decide
theorem test_wf_rspEF83_right_crc : wellFormed (.rspEF83 0 0x01 0x00 0x41 0x30) = false := by decide +kernel
theorem test_wf_exc01_no_error_bit : wellFormed (.exc01 0 0x01 0x03 0 0) = false := by decide
theorem test_wf_exc02_no_error_bit : wellFormed (.exc02 0 0x01 0x03 0 0) = false := by decide
theorem test_wf_exc03_no_error_bit : wellFormed (.exc03 0 0x01 0x03 0 0) = false := by decide
theorem test_wf_exc04_no_error_bit : wellFormed (.exc04 0 0x01 0x03 0 0) = false := by decide
theorem test_wf_exc05_no_error_bit : wellFormed (.exc05 0 0x01 0x03 0 0) = false := by decide
theorem test_wf_exc06_no_error_bit : wellFormed (.exc06 0 0x01 0x03 0 0) = false := by decide
theorem test_wf_exc08_no_error_bit : wellFormed (.exc08 0 0x01 0x03 0 0) = false := by decide
theorem test_wf_exc0A_no_error_bit : wellFormed (.exc0A 0 0x01 0x03 0 0) = false := by decide
theorem test_wf_exc0B_no_error_bit : wellFormed (.exc0B 0 0x01 0x03 0 0) = false := by decide
theorem test_wf_excUnknown_listed_code : wellFormed (.excUnknown 0 0x01 0x83 0x02 0xC0 0xF1) = false := by decide
theorem test_wf_excUnknown_bad_crc : wellFormed (.excUnknown 0 0x01 0x83 0x00 0x41 0x31) = false := by decide +kernel
theorem test_wf_excUnknown_no_error_bit : wellFormed (.excUnknown 0 0x01 0x03 0x00 0x20 0xF0) = false := by decide

/-! ### Decoding: one word or frame per constructor, bit by bit from R97, R98 and R81 to R83 -/

-- opcode byte 63:56, then the operand fields, then reserved zeros (R97)
theorem test_decode_sysReset :
    read (.command 0b00000001_00000000_00000000_00000000_00000000_00000000_00000000_00000000) = some .sysReset := by decide
theorem test_decode_sysRd :
    read (.command 0b00000010_00001101_00000000_00000000_00000000_00000000_00000000_00000000) =
      some (.sysRd 0x0D) := by decide
theorem test_decode_sysWr :
    read (.command 0b00000011_01000000_10101011_11001101_00000000_00000000_00000000_00000000) =
      some (.sysWr 0x40 0xABCD) := by decide
theorem test_decode_crcInit :
    read (.command 0b00010000_00000000_00000000_00000000_00000000_00000000_00000000_00000000) = some .crcInit := by decide
theorem test_decode_crcXorb :
    read (.command 0b00010001_10000001_00000000_00000000_00000000_00000000_00000000_00000000) =
      some (.crcXorb 0x81) := by decide
theorem test_decode_crcShift :
    read (.command 0b00010010_00000000_00000000_00000000_00000000_00000000_00000000_00000000) = some .crcShift := by decide
theorem test_decode_crcByte :
    read (.command 0b00010011_00110001_00000000_00000000_00000000_00000000_00000000_00000000) =
      some (.crcByte 0x31) := by decide
theorem test_decode_crcRead :
    read (.command 0b00010100_00000000_00000000_00000000_00000000_00000000_00000000_00000000) = some .crcRead := by decide
-- V3.8
theorem test_decode_encBuild :
    read (.command 0b00100000_00000001_00000011_00010010_00110100_10101011_11001101_00000000) =
      some (.encBuild 0x01 0x03 0x1234 0xABCD) := by decide
theorem test_decode_txPop :
    read (.command 0b00100001_00000000_00000000_00000000_00000000_00000000_00000000_00000000) = some .txPop := by decide
theorem test_decode_rxClear :
    read (.command 0b00110000_00000000_00000000_00000000_00000000_00000000_00000000_00000000) = some .rxClear := by decide
theorem test_decode_rxPush :
    read (.command 0b00110001_11111010_00000000_00000000_00000000_00000000_00000000_00000000) =
      some (.rxPush 0xFA) := by decide
theorem test_decode_decParse :
    read (.command 0b00110010_00010010_00110100_00000000_00000000_00000000_00000000_00000000) =
      some (.decParse 0x1234) := by decide
theorem test_decode_decRdreg :
    read (.command 0b00110011_00000111_00000000_00000000_00000000_00000000_00000000_00000000) =
      some (.decRdreg 0x07) := by decide
theorem test_decode_decRdraw :
    read (.command 0b00110100_00000001_00000100_00000000_00000000_00000000_00000000_00000000) =
      some (.decRdraw 0x0104) := by decide
-- V3.11 (function code 0x06)
theorem test_decode_req : read (.request 0x010600010003980B) = some (.req 0x01 0x06 0x0001 0x0003 0x98 0x0B) := by decide
-- V3.2
theorem test_decode_reqF03 : read (.request 0x010300020008E5CC) = some (.reqF03 0x01 0x0002 0x0008 0xE5 0xCC) := by decide
-- V4.16a (function code 0x04)
theorem test_decode_rspN : read (.response 1 [0x01, 0x04, 0x02, 0xBE, 0xEF, 0x89, 0x1C]) =
    some (.rspN 1 0x01 0x04 0x02 [0xBE, 0xEF] 0x89 0x1C) := by decide
-- V4.5
theorem test_decode_rspNF03 : read (.response 1 [0x01, 0x03, 0x03, 0x12, 0x34, 0x56, 0x73, 0x75]) =
    some (.rspNF03 1 0x01 0x03 [0x12, 0x34, 0x56] 0x73 0x75) := by decide
theorem test_decode_rspE : read (.response 0 [0x01, 0x84, 0x07, 0x00, 0x00]) =
    some (.rspE 0 0x01 0x84 0x07 0x00 0x00) := by decide +kernel
theorem test_decode_rspEF83 : read (.response 0 [0x01, 0x83, 0x07, 0x00, 0x00]) =
    some (.rspEF83 0 0x01 0x07 0x00 0x00) := by decide +kernel
-- V4.12, the nine listed codes
theorem test_decode_exc01 : read (.response 1 [0x01, 0x83, 0x01, 0x80, 0xF0]) =
    some (.exc01 1 0x01 0x83 0x80 0xF0) := by decide
theorem test_decode_exc02 : read (.response 1 [0x01, 0x83, 0x02, 0xC0, 0xF1]) =
    some (.exc02 1 0x01 0x83 0xC0 0xF1) := by decide
theorem test_decode_exc03 : read (.response 1 [0x01, 0x83, 0x03, 0x01, 0x31]) =
    some (.exc03 1 0x01 0x83 0x01 0x31) := by decide
theorem test_decode_exc04 : read (.response 1 [0x01, 0x83, 0x04, 0x40, 0xF3]) =
    some (.exc04 1 0x01 0x83 0x40 0xF3) := by decide
theorem test_decode_exc05 : read (.response 1 [0x01, 0x83, 0x05, 0x81, 0x33]) =
    some (.exc05 1 0x01 0x83 0x81 0x33) := by decide
theorem test_decode_exc06 : read (.response 1 [0x01, 0x83, 0x06, 0xC1, 0x32]) =
    some (.exc06 1 0x01 0x83 0xC1 0x32) := by decide
theorem test_decode_exc08 : read (.response 1 [0x01, 0x83, 0x08, 0x40, 0xF6]) =
    some (.exc08 1 0x01 0x83 0x40 0xF6) := by decide
theorem test_decode_exc0A : read (.response 1 [0x01, 0x83, 0x0A, 0xC1, 0x37]) =
    some (.exc0A 1 0x01 0x83 0xC1 0x37) := by decide
theorem test_decode_exc0B : read (.response 1 [0x01, 0x83, 0x0B, 0x00, 0xF7]) =
    some (.exc0B 1 0x01 0x83 0x00 0xF7) := by decide
theorem test_decode_excUnknown : read (.response 1 [0x01, 0x83, 0x00, 0x41, 0x30]) =
    some (.excUnknown 1 0x01 0x83 0x00 0x41 0x30) := by decide +kernel
-- a listed code in a frame of another function code, and with a wrong CRC (V4.12 last row, V4.13b)
theorem test_decode_exc01_other_function : read (.response 1 [0x02, 0x81, 0x01, 0x71, 0x90]) =
    some (.exc01 1 0x02 0x81 0x71 0x90) := by decide
theorem test_decode_exc02_wrong_crc : read (.response 1 [0x01, 0x83, 0x02, 0xC0, 0x0E]) =
    some (.exc02 1 0x01 0x83 0xC0 0x0E) := by decide

/-! ### Decoding refuses (R99, R84) -/

theorem test_refuse_zero_word : decode (.command 0) = .error .illegalCommand := rfl
theorem test_refuse_reserved_bit : decode (.command 0x1300000000000001) = .error .illegalCommand := rfl
theorem test_refuse_reserved_cw0 : decode (.command 0x1000000000000001) = .error .illegalCommand := rfl
theorem test_refuse_reserved_cw816 : decode (.command 0x0300000180000000) = .error .illegalCommand := rfl
theorem test_refuse_reserved_cwB : decode (.command 0x2001030001000101) = .error .illegalCommand := rfl
theorem test_refuse_unused_opcode : decode (.command 0x9900000000000000) = .error .illegalCommand := rfl
theorem test_refuse_four_bytes : read (.response 0 [0x01, 0x83, 0x02, 0xC0]) = none := rfl
theorem test_refuse_long_error_frame : read (.response 0 [0x01, 0x83, 0x02, 0xC0, 0xF1, 0x09]) = none := rfl
theorem test_refuse_short_normal_frame : read (.response 0 [0x01, 0x03, 0x02, 0x00, 0xFA, 0x38]) = none := rfl

/-! ### The table's numbering -/

theorem test_table_command : decodeTableWord 64 0x2000000000000000 = some (.encBuild 0 0 0 0) := by decide
theorem test_table_req : decodeTableWord 64 0 = some (.req 0 0 0 0 0 0) := by decide
theorem test_table_reqF03 : decodeTableWord 64 0x0003000000000000 = some (.reqF03 0 0 0 0 0) := by decide
theorem test_table_rspN : decodeTableWord 24 0 = some (.rspN 0 0 0 0 [] 0 0) := by decide
theorem test_table_rspN_padded : decodeTableWord 24 0x010402 = some (.rspN 0 0x01 0x04 0x02 [0, 0] 0 0) := by decide
theorem test_table_rspNF03 : decodeTableWord 24 0x000300 = some (.rspNF03 0 0 0 [] 0 0) := by decide
theorem test_table_rspE : decodeTableWord 40 0x0080000000 = some (.rspE 0 0 0x80 0 0 0) := by decide +kernel
theorem test_table_rspEF83 : decodeTableWord 40 0x0083000000 = some (.rspEF83 0 0 0 0 0) := by decide +kernel
theorem test_table_exc0B : decodeTableWord 40 0x00800B0000 = some (.exc0B 0 0 0x80 0 0) := by decide
theorem test_table_excUnknown : decodeTableWord 40 0x0183004130 = some (.excUnknown 0 0x01 0x83 0 0x41 0x30) := by decide +kernel
theorem test_fetch_command : step (State.reset.withFetchWord 64 0x1300000000000000) =
    exec (.crcByte 0) State.reset := rfl
theorem test_fetch_frame : step (State.reset.withFetchWord 40 0x0080010000) =
    exec (.exc01 0 0 0x80 0 0) State.reset := rfl

/-! ### One step each -/

-- R195
theorem test_reset_clears : (after [.sysReset] { strict with crcAcc := 0x1234 }).strictCrc = false := by decide
theorem test_reset_crc : (after [.sysReset] { strict with crcAcc := 0x1234 }).crcAcc = 0xFFFF := by decide
-- V5 (R196, R197)
theorem test_sysRd_crcAcc : reply (after [.sysRd 0x02] State.reset) = some (.value 0xFFFF) := by decide
theorem test_sysRd_bad : reply (after [.sysRd 0x0E] State.reset) = some (.refused .badRegister) := by decide
theorem test_sysWr_ctrl : (after [.sysWr 0x00 0xFFFF] State.reset).strictCrc = true := by decide
theorem test_sysWr_bad_before_readOnly : reply (after [.sysWr 0x40 1] State.reset) = some (.refused .badRegister) := by
  decide
-- V2.7
theorem test_crcInit : (after [.crcInit] { State.reset with crcAcc := 0x1234 }).crcAcc = 0xFFFF := by decide
theorem test_crcXorb : (after [.crcXorb 0xFF] { State.reset with crcAcc := 0xABCD }).crcAcc = 0xAB32 := by decide
-- V2.1
theorem test_crcShift_out_one : (after [.crcShift] { State.reset with crcAcc := 0x8001 }).crcAcc = 0xE001 := by decide
theorem test_crcShift_out_zero : (after [.crcShift] { State.reset with crcAcc := 0x4002 }).crcAcc = 0x2001 := by decide
-- V2.2
theorem test_crcByte : (after [.crcByte 0x56] { State.reset with crcAcc := 0x1234 }).crcAcc = 0xE993 := by decide
-- V2.6
theorem test_crcRead : reply (after [.crcRead] { State.reset with crcAcc := 0x40BF }) = some (.bytes 0xBF 0x40) := by
  decide
-- V3.8
theorem test_encBuild : (after [.encBuild 0x01 0x03 0x1234 0xABCD] State.reset).txbuf.readBytes 0 8 =
    [0x01, 0x03, 0x12, 0x34, 0xAB, 0xCD, 0xBF, 0xD9] := by decide +kernel
-- V3.13
theorem test_txPop_last : after [.txPop] { State.reset with txbuf := [(7, 0xCA)], txPtr := 7, txValid := true } =
    { State.reset with txbuf := [(7, 0xCA)], txPtr := 8, replies := [.value 0x00CA] } := by decide
theorem test_txPop_empty : reply (after [.txPop] State.reset) = some (.refused .txEmpty) := by decide
-- R145 to R147
theorem test_rxClear : (after [.rxClear] (loaded [0x01, 0x02] State.reset)).rxLen = 0 := by decide
theorem test_rxPush : (after [.rxPush 0x7F] (loaded [0x01, 0x02] State.reset)).rxbuf.read 2 = 0x7F := by decide
theorem test_rxPush_overflow : after [.rxPush 0x7F] { State.reset with rxLen := 260 } =
    { State.reset with rxLen := 260, rxOvf := true, replies := [.done] } := by decide
-- V4.5: the odd byte is under the CRC and in no register
theorem test_parse_odd : (after [.decParse 1] (loaded [0x01, 0x03, 0x03, 0x12, 0x34, 0x56, 0x73, 0x75] strict)).regs =
    [0x1234] := by decide +kernel
-- V4.8b
theorem test_parse_mismatch :
    statusWord (after [.decParse 1] (loaded [0x01, 0x03, 0x02, 0x00, 0xFB, 0x38, 0x07] strict)) = 0x0010 := by decide +kernel
-- V4.3
theorem test_rdreg : reply (after [.decRdreg 1]
    { State.reset with decStatus := .ok, regCount := 2, regs := [0x007B, 0x5555] }) = some (.value 0x5555) := by decide
theorem test_rdreg_past : reply (after [.decRdreg 2]
    { State.reset with decStatus := .ok, regCount := 2, regs := [0x007B, 0x5555] }) = some (.refused .noData) := by decide
-- P3
theorem test_rdraw : reply (after [.decRdraw 1] (loaded [0x01, 0x83] State.reset)) = some (.value 0x0083) := by decide
theorem test_rdraw_past : reply (after [.decRdraw 2] (loaded [0x01, 0x83] State.reset)) = some (.refused .rawRange) := by
  decide
-- V3.11, V3.1: the last byte popped
theorem test_req : reply (after [.req 0x01 0x06 0x0001 0x0003 0x98 0x0B] State.reset) = some (.value 0x000B) := by decide +kernel
theorem test_reqF03 : reply (after [.reqF03 0x01 0x0001 0x0001 0xD5 0xCA] State.reset) = some (.value 0x00CA) := by decide +kernel
-- V4.16a, V4.2
theorem test_rspN : (after [.rspN 1 0x01 0x04 0x02 [0xBE, 0xEF] 0x89 0x1C] strict).regs = [0xBEEF] := by decide +kernel
theorem test_rspNF03 : statusWord (after [.rspNF03 2 0x01 0x04 [0x00, 0xEB, 0x02, 0x12] 0x0B 0x6A] strict) = 0x0064 := by
  decide +kernel
-- V4.13b; STATUS without CRC_OK
theorem test_rspE_wrong_crc : statusWord (after [.rspE 1 0x01 0x84 0x07 0x00 0x00] strict) = 0x000C := by decide +kernel
theorem test_rspEF83_unlisted : (after [.rspEF83 1 0x01 0x07 0x00 0x00] strict).msgId = 10 := by decide
-- V4.12
theorem test_exc01 : reply (after [.exc01 1 0x01 0x83 0x80 0xF0] strict) =
    some (.err (.deviceError 0x01 "illegal function")) := by decide
theorem test_exc02 : reply (after [.exc02 1 0x01 0x83 0xC0 0xF1] strict) =
    some (.err (.deviceError 0x02 "illegal data address")) := by decide
theorem test_exc03 : reply (after [.exc03 1 0x01 0x83 0x01 0x31] strict) =
    some (.err (.deviceError 0x03 "illegal data value")) := by decide
theorem test_exc04 : reply (after [.exc04 1 0x01 0x83 0x40 0xF3] strict) =
    some (.err (.deviceError 0x04 "slave device failure")) := by decide
theorem test_exc05 : reply (after [.exc05 1 0x01 0x83 0x81 0x33] strict) =
    some (.err (.deviceError 0x05 "acknowledge")) := by decide
theorem test_exc06 : reply (after [.exc06 1 0x01 0x83 0xC1 0x32] strict) =
    some (.err (.deviceError 0x06 "slave device busy")) := by decide
theorem test_exc08 : reply (after [.exc08 1 0x01 0x83 0x40 0xF6] strict) =
    some (.err (.deviceError 0x08 "memory parity error")) := by decide
theorem test_exc0A : reply (after [.exc0A 1 0x01 0x83 0xC1 0x37] strict) =
    some (.err (.deviceError 0x0A "gateway path unavailable")) := by decide
theorem test_exc0B : reply (after [.exc0B 1 0x01 0x83 0x00 0xF7] strict) =
    some (.err (.deviceError 0x0B "gateway target device failed to respond")) := by decide
theorem test_excUnknown : reply (after [.excUnknown 1 0x01 0x83 0x00 0x41 0x30] strict) =
    some (.err (.deviceError 0x00 "unknown error")) := by decide
-- R99
theorem test_illegal_word : fed (.command 0x9900000000000000) State.reset =
    { State.reset with replies := [.refused .illegalCommand] } := by decide
-- V4.11d: bytes that are no whole frame are still received and parsed
theorem test_short_response : reply (fed (.response 1 [0x01, 0x03, 0x02]) State.reset) =
    some (.err .shortResponse) := by decide
-- R96
theorem test_assemble_csr_name : assemble "SYS.WR CTRL, 0x1 ; strict" = some (.commands [.sysWr 0 1]) := by decide
theorem test_assemble_parse : assemble "DEC.PARSE 8" = some (.commands [.decParse 8]) := by decide
-- R181 to R183; V6.1, V6.2
theorem test_env_unscaled : readingOf .env (.registers [250]) = .env 250 := by decide
theorem test_channel : channelOf 123 = .temperature 123 := by decide
theorem test_channel_sentinel : channelOf 0x5555 = .disconnected := by decide

/-! ### The hypotheses of the statements are met -/

/-- A state with a frame partly sent and a response parsed in strict mode (V4.1). -/
def busy : State :=
  after [.rspNF03 1 0x01 0x02 [0x00, 0xFA] 0x38 0x07, .encBuild 0x01 0x03 0x0001 0x0001, .txPop] strict

/-- The same, a TX.POP issued. -/
def busyNext : State := busy.withInput (.command 0x2100000000000000)

/-- A state whose receive buffer is full. -/
def full : State := { State.reset with rxLen := 260 }

theorem witness_DecodeEncodeRoundTrip : WellFormed (.rspNF03 0xFFFF 0xFF 0x01 [0xAB] 0x00 0xFF) := by decide
theorem witness_DecodeEncodeRoundTrip_req : WellFormed (.req 0x01 0x06 0x0001 0x0003 0x98 0x0B) := by decide +kernel
theorem witness_EncodeDecodeRoundTrip : decode (.command 0x320008FFFFFFFFFF) = .error .illegalCommand ∧
    decode (.command 0x3200080000000000) = .ok (.decParse 8) := ⟨rfl, rfl⟩
theorem witness_EncodeDecodeRoundTrip_frame :
    decode (.response 1 [0x01, 0x83, 0x02, 0xC0, 0xF1]) = .ok (.exc02 1 0x01 0x83 0xC0 0xF1) := rfl
theorem witness_CommandDecodeFollowsOpcodeMap : commandTable[14] ∈ commandTable ∧
    commandTable[14].matches 0x34FFFF0000000000 := by decide
theorem witness_OpcodeMapRowsNeverOverlap : commandTable[8] ∈ commandTable ∧
    commandTable[8].matches 0x20FFFFFFFFFFFF00 := by decide
theorem witness_StepRunsTheDecodedInstruction :
    (State.reset.withInput (.command 0x31FA000000000000)).inbox = .command 0x31FA000000000000 :: [] ∧
    decode (.command 0x31FA000000000000) = .ok (.rxPush 0xFA) := ⟨rfl, rfl⟩
theorem witness_IllegalWordIsRefused :
    (busy.withInput (.command 0x1000000000000001)).inbox = .command 0x1000000000000001 :: [] ∧
    ∀ row ∈ commandTable, ¬ row.matches 0x1000000000000001 := by decide +kernel
theorem witness_OneCommandOneReply : (State.reset.withInput (.command 0)).inbox = .command 0 :: [] := rfl
theorem witness_EveryStepCompletes_idle : State.reset.inbox = [] := rfl
theorem witness_StepKeepsInvariant : Inv busyNext ∧ ∃ t, step busyNext = .next t :=
  ⟨by constructor <;> constructor <;> decide +kernel, _, rfl⟩
theorem witness_SysRdFollowsTheCsrFile : (0x0D : Byte) < 0x0E ∧ (0x0D : Byte) ≤ 0x0D ∧ (0x00 : Byte) ≤ 0x0D := by decide
theorem witness_SysWrWritesStrictCrcOnly :
    (0x0D : Byte) < 0x0E ∧ ((0x00 : Byte) < 0x01 ∧ (0x01 : Byte) ≤ 0x0D) ∧ ((0x00 : Byte) < 0x0D ∧ (0x0D : Byte) ≤ 0x0D) ∧
    (0x00 : Byte) = 0x00 := by decide
theorem witness_OnlySysWrAndResetChangeCtrl : writesCtrl (.decParse 1) = false := rfl
theorem witness_CrcShiftBitByBit : 1 ≤ 1 ∧ 1 ≤ 12 ∧ 12 ≤ 12 := by decide
theorem witness_CrcCommandsComputeCrc16 : ∀ i ∈ [Instr.crcByte 0x01, .encBuild 1 3 1 1, .crcRead, .decParse 0, .crcByte 0x03],
    writesCrc i = false ∨ (absorbed i).isSome := by decide
theorem witness_CrcAccumulatorIsPrivate : writesCrc (.rspNF03 1 0x01 0x02 [0x00, 0xFA] 0x38 0x07) = false := rfl
theorem witness_TxPopHandsOutOneByte : busy.txValid = true ∧ State.reset.txValid = false := by decide +kernel
theorem witness_EightPopsDeliverTheRequest :
    (∀ g ∈ [[Instr.crcByte 0x01, .rxClear], []], ∀ i ∈ g, writesTx i = false) ∧
    (∀ g ∈ List.replicate 8 [Instr.sysRd 0x01], ∀ i ∈ g, writesTx i = false) ∧
    (∀ g ∈ List.replicate 9 [Instr.exc02 1 0x01 0x83 0xC0 0xF1], ∀ i ∈ g, writesTx i = false) := by decide
theorem witness_RxPushAppendsOrOverflows :
    { State.reset with rxLen := 259 }.rxLen.toNat < 260 ∧ 260 ≤ full.rxLen.toNat := by decide
theorem witness_OverflowIsSticky : (after [.rxPush 0x01] full).rxOvf = true ∧ Instr.decParse 1 ≠ .rxClear ∧
    Instr.decParse 1 ≠ .sysReset ∧ responseOf (.decParse 1) = none := by decide
theorem witness_ParseRefinesDecodeResponse :
    decodeResponse (busy.rxbuf.readBytes 0 busy.rxLen.toNat) busy.strictCrc = .ok [0x00FA] ∧
    decodeResponse (State.reset.rxbuf.readBytes 0 State.reset.rxLen.toNat) State.reset.strictCrc =
      .error .shortResponse := by decide +kernel
theorem witness_ParseOutcomes_short : (loaded [0x01, 0x83, 0x02, 0xC0] strict).rxLen.toNat < 5 := by decide
theorem witness_ParseOutcomes_error :
    5 ≤ (loaded [0x01, 0x83, 0x02, 0xC0, 0xF1] strict).rxLen.toNat ∧
    ((loaded [0x01, 0x83, 0x02, 0xC0, 0xF1] strict).rxbuf.read 1).getLsbD 7 = true := by decide
theorem witness_ParseOutcomes_truncated :
    5 ≤ (loaded [0x01, 0x03, 0x01, 0x00, 0x00] strict).rxLen.toNat ∧
    ((loaded [0x01, 0x03, 0x01, 0x00, 0x00] strict).rxbuf.read 1).getLsbD 7 = false ∧
    (loaded [0x01, 0x03, 0x01, 0x00, 0x00] strict).rxLen.toNat <
      3 + ((loaded [0x01, 0x03, 0x01, 0x00, 0x00] strict).rxbuf.read 2).toNat + 2 := by decide
theorem witness_ParseOutcomes_mismatch :
    let s := loaded [0x01, 0x03, 0x00, 0x20, 0xF1] strict
    5 ≤ s.rxLen.toNat ∧ (s.rxbuf.read 1).getLsbD 7 = false ∧ 3 + (s.rxbuf.read 2).toNat + 2 ≤ s.rxLen.toNat ∧
    s.strictCrc = true ∧ le16 (s.rxbuf.read 3) (s.rxbuf.read 4) ≠ crc16 (s.rxbuf.readBytes 0 3) := by decide +kernel
theorem witness_ParseOutcomes_ok :
    let s := loaded [0x01, 0x03, 0x00, 0x20, 0xF0] strict
    5 ≤ s.rxLen.toNat ∧ (s.rxbuf.read 1).getLsbD 7 = false ∧ 3 + (s.rxbuf.read 2).toNat + 2 ≤ s.rxLen.toNat ∧
    le16 (s.rxbuf.read 3) (s.rxbuf.read 4) = crc16 (s.rxbuf.readBytes 0 3) := by decide +kernel
theorem witness_ParseOutcomes_parity :
    let s := loaded [0x01, 0x03, 0x00, 0x20, 0xF1] State.reset
    5 ≤ s.rxLen.toNat ∧ (s.rxbuf.read 1).getLsbD 7 = false ∧ 3 + (s.rxbuf.read 2).toNat + 2 ≤ s.rxLen.toNat ∧
    s.strictCrc = false := by decide
theorem witness_TrailingBytesAreIgnored :
    decodeResponse [0x01, 0x03, 0x00, 0x20, 0xF0] true ≠ .error .shortResponse := by decide +kernel
theorem witness_ProperPrefixOfAFrameIsShort :
    [0x01, 0x03, 0x01, 0xAB, 0xB1, 0xF7].length = (if errorBit (byteOf [0x01, 0x03, 0x01, 0xAB, 0xB1, 0xF7] 1) then 5
      else 3 + (byteOf [0x01, 0x03, 0x01, 0xAB, 0xB1, 0xF7] 2).toNat + 2) ∧
    5 < [(0x01 : Byte), 0x03, 0x01, 0xAB, 0xB1, 0xF7].length := by decide
theorem witness_ModesDifferOnlyOnMismatch :
    decodeResponse [0x01, 0x03, 0x00, 0x20, 0xF0] true = .ok [] ∧
    decodeResponse [0x01, 0x03, 0x00, 0x20, 0xF1] true = .error .crcMismatch := by decide +kernel
theorem witness_FabricatedResponsesRoundTrip :
    errorBit 0x7F = false ∧ (List.replicate 127 (0xABCD : Word)).length ≤ 127 := by decide +kernel
theorem witness_MessageTable : (0x07 : Byte) ∉ listedCodes ∧ (0x00 : Byte) ∉ listedCodes ∧ (0x0C : Byte) ∉ listedCodes := by
  decide
theorem witness_ResultsOutliveTheBuffer : writesResults (.rxPush 0x01) = false := rfl
theorem witness_BuffersChangeByTheirOwnUnitOnly : writesTx (.decParse 1) = false ∧ writesRx (.decParse 1) = false := by
  decide
theorem witness_RdregRepliesOrRefuses : busy.decStatus = .ok ∧ (0x00 : Byte).toNat < busy.regCount.toNat ∧
    busy.regCount.toNat ≤ (0x01 : Byte).toNat ∧ State.reset.decStatus ≠ .ok := by decide +kernel
theorem witness_RdregReadsThePayload : exec (.decParse 1) busy = .next (parse 1 busy) ∧
    (parse 1 busy).replies.head? = some (.ok 1) := ⟨rfl, by decide +kernel⟩
theorem witness_RdrawRepliesOrRefuses : (0x0006 : Word).toNat < busy.rxLen.toNat ∧
    busy.rxLen.toNat ≤ (0x0007 : Word).toNat := by decide +kernel
theorem witness_RefusalsLeaveNoTrace :
    (State.reset.withInput (.command 0x2100000000000000)).inbox = .command 0x2100000000000000 :: [] ∧
    step (State.reset.withInput (.command 0x2100000000000000)) = .next (refuse .txEmpty State.reset) ∧
    (refuse .txEmpty State.reset).replies.head? = some (.refused .txEmpty) := ⟨rfl, rfl, rfl⟩
theorem witness_RefusalsAreExactlyThoseListed :
    (State.reset.withInput (.command 0x020E000000000000)).inbox = .command 0x020E000000000000 :: [] ∧
    step (State.reset.withInput (.command 0x020E000000000000)) = .next (refuse .badRegister State.reset) := ⟨rfl, rfl⟩
theorem witness_RequestRowsSendTheirFrame :
    requestOf (.reqF03 0x01 0x0001 0x0001 0xD5 0xCA) = some (0x01, 0x03, 0x0001, 0x0001) ∧
    requestOf (.req 0x01 0x06 0x0001 0x0003 0x98 0x0B) = some (0x01, 0x06, 0x0001, 0x0003) := by decide
theorem witness_RequestRowBytesAreTheEncoding : WellFormed (.reqF03 0x01 0x0001 0x0001 0xD5 0xCA) ∧
    requestOf (.reqF03 0x01 0x0001 0x0001 0xD5 0xCA) = some (0x01, 0x03, 0x0001, 0x0001) := by decide +kernel
theorem witness_ResponseRowsLoadAndParse :
    responseOf (.rspN 1 0x01 0x04 0x02 [0xBE, 0xEF] 0x89 0x1C) =
      some (1, [0x01, 0x04, 0x02, 0xBE, 0xEF, 0x89, 0x1C]) := by decide
theorem witness_NormalResponseRowOutcome :
    WellFormed (.rspN 0 0x01 0x04 0x00 [] 0x00 0x00) ∧ WellFormed (.rspNF03 1 0x01 0x03 [0x12, 0x34, 0x56] 0x73 0x75) ∧
    le16 0x73 0x75 = crc16 [0x01, 0x03, 0x03, 0x12, 0x34, 0x56] ∧ strict.strictCrc = true ∧
    le16 0x00 0x00 ≠ crc16 [0x01, 0x04, 0x00] := by decide +kernel
theorem witness_ErrorResponseRowOutcome :
    responseOf (.rspEF83 1 0x01 0x07 0x00 0x00) = some (1, [0x01, 0x83, 0x07, 0x00, 0x00]) ∧ errorBit 0x83 = true := by
  decide

/-- Nothing pending, a TX.POP issued, and `m` behind the transmit buffer, where nothing can be read. -/
def shadow (m : Memory) : State := { State.reset with txbuf := m, inbox := [.command 0x2100000000000000] }

theorem shadow_inv_3 : Inv (shadow [(3, 0x5A)]) := by constructor <;> constructor <;> decide
theorem shadow_inv_7 : Inv (shadow [(7, 0x01)]) := by constructor <;> constructor <;> decide

/-- Whatever stands behind the buffer, the host sees the same. -/
theorem shadow_sameView (m n : Memory) : SameView (shadow m) (shadow n) := by
  constructor
  case txbuf => exact fun pending => absurd pending Bool.false_ne_true
  all_goals first | rfl | exact fun _ _ => rfl

theorem witness_HiddenStorageIsNotObservable :
    Inv (shadow [(3, 0x5A)]) ∧ Inv (shadow [(7, 0x01)]) ∧ SameView (shadow [(3, 0x5A)]) (shadow [(7, 0x01)]) ∧
    (∃ t, step (shadow [(3, 0x5A)]) = .next t) ∧ ∃ t, step (shadow [(7, 0x01)]) = .next t :=
  ⟨shadow_inv_3, shadow_inv_7, shadow_sameView _ _, ⟨_, rfl⟩, _, rfl⟩

theorem witness_PollRecoversTheRegisters : (List.replicate 127 (0xABCD : Word)).length = (127 : Word).toNat ∧
    (127 : Word).toNat ≤ 127 ∧ ([] : List Word).length = (0 : Word).toNat := by decide +kernel
theorem witness_ProfilesDecodeTheirRegisters :
    [(0x007B : Word), 0x5555, 0, 0xFFFF, 0x00FA, 1, 0x5554, 0x5556].length = 8 := rfl

end Sys2Proof.Tests
end

/-! # Serving one input

How a step reads the host's queue and hands the input on, that a command word gets one reply, and that a step of two
states with the same view ends in two states with the same view. -/

namespace Sys2Proof.Machine

/-! ### The step and the decoder -/

theorem step_of_inbox_nil {s : State} (h : s.inbox = []) : step s = .next s := by
  simp only [step, h]

theorem step_of_inbox_cons {s : State} {x : Input} {rest : List Input} (h : s.inbox = x :: rest) :
    step s = serve x { s with inbox := rest } := by
  simp only [step, h]

theorem serve_of_decode_ok {x : Input} {i : Instr} (s : State) (h : decode x = .ok i) : serve x s = exec i s := by
  simp only [serve, h]

/-- A command word is executed as the command it decodes to, or refused. -/
theorem serve_command_cases (w : Word64) (s : State) :
    (∃ i, decodeCommand w = some i ∧ serve (.command w) s = exec i s) ∨
    (decodeCommand w = none ∧ serve (.command w) s = .next (refuse .illegalCommand s)) := by
  cases h : decodeCommand w with
  | some i => exact .inl ⟨i, rfl, serve_of_decode_ok s (by simp only [decode, h])⟩
  | none => exact .inr ⟨rfl, by simp only [serve, decode, h]⟩

/-- Settles O7: the step takes the input off the queue, serving it executes what it decodes to. -/
theorem stepRunsTheDecodedInstruction : Obligations.StepRunsTheDecodedInstruction := by
  intro s x rest i hinbox hdecode
  rw [step_of_inbox_cons hinbox, serve_of_decode_ok _ hdecode]

/-! ### A command word decodes to a command of R98's table, never to a wire row -/

/-- What is decoded, if anything is, has a mnemonic in R98's table. -/
def OnlyCommands (o : Option Instr) : Prop := ∀ i, o = some i → (commandMnemonic i).isSome = true

theorem onlyCommands_none : OnlyCommands none := fun _ h => nomatch h

theorem onlyCommands_some {i : Instr} (h : (commandMnemonic i).isSome = true) : OnlyCommands (some i) :=
  fun _ hi => Option.some.inj hi ▸ h

theorem onlyCommands_ite {c : Prop} [Decidable c] {o o' : Option Instr} (h : OnlyCommands o) (h' : OnlyCommands o') :
    OnlyCommands (if c then o else o') :=
  iteInduction (fun _ => h) fun _ => h'

theorem onlyCommands_cw0 (w : Word64) {i : Instr} (h : (commandMnemonic i).isSome = true) : OnlyCommands (cw0 w i) :=
  onlyCommands_ite (onlyCommands_some h) onlyCommands_none

theorem onlyCommands_cw8 (w : Word64) {i : Byte → Instr} (h : ∀ b, (commandMnemonic (i b)).isSome = true) :
    OnlyCommands (cw8 w i) :=
  onlyCommands_ite (onlyCommands_some (h _)) onlyCommands_none

theorem onlyCommands_cw16 (w : Word64) {i : Word → Instr} (h : ∀ e, (commandMnemonic (i e)).isSome = true) :
    OnlyCommands (cw16 w i) :=
  onlyCommands_ite (onlyCommands_some (h _)) onlyCommands_none

theorem onlyCommands_cw816 (w : Word64) {i : Byte → Word → Instr}
    (h : ∀ r v, (commandMnemonic (i r v)).isSome = true) : OnlyCommands (cw816 w i) :=
  onlyCommands_ite (onlyCommands_some (h _ _)) onlyCommands_none

theorem onlyCommands_cwB (w : Word64) {i : Byte → Byte → Word → Word → Instr}
    (h : ∀ a f st n, (commandMnemonic (i a f st n)).isSome = true) : OnlyCommands (cwB w i) :=
  onlyCommands_ite (onlyCommands_some (h _ _ _ _)) onlyCommands_none

/-- Row by row of the opcode map, in its order. -/
theorem onlyCommands_decodeCommand (w : Word64) : OnlyCommands (decodeCommand w) := by
  unfold decodeCommand
  extract_lets op
  refine onlyCommands_ite (onlyCommands_cw0 w rfl) ?_
  refine onlyCommands_ite (onlyCommands_cw8 w fun _ => rfl) ?_
  refine onlyCommands_ite (onlyCommands_cw816 w fun _ _ => rfl) ?_
  refine onlyCommands_ite (onlyCommands_cw0 w rfl) ?_
  refine onlyCommands_ite (onlyCommands_cw8 w fun _ => rfl) ?_
  refine onlyCommands_ite (onlyCommands_cw0 w rfl) ?_
  refine onlyCommands_ite (onlyCommands_cw8 w fun _ => rfl) ?_
  refine onlyCommands_ite (onlyCommands_cw0 w rfl) ?_
  refine onlyCommands_ite (onlyCommands_cwB w fun _ _ _ _ => rfl) ?_
  refine onlyCommands_ite (onlyCommands_cw0 w rfl) ?_
  refine onlyCommands_ite (onlyCommands_cw0 w rfl) ?_
  refine onlyCommands_ite (onlyCommands_cw8 w fun _ => rfl) ?_
  refine onlyCommands_ite (onlyCommands_cw16 w fun _ => rfl) ?_
  refine onlyCommands_ite (onlyCommands_cw8 w fun _ => rfl) ?_
  exact onlyCommands_ite (onlyCommands_cw16 w fun _ => rfl) onlyCommands_none

/-! ### One reply a command (R10) -/

/-- From `s` to `t` the queue stood still and one reply was given. -/
def OneReply (s t : State) : Prop := t.inbox = s.inbox ∧ ∃ r, t.replies = r :: s.replies

theorem OneReply.log (s : State) (r : Reply) : OneReply s (s.log r) := ⟨rfl, r, rfl⟩

theorem OneReply.refuse (r : RefuseReason) (s : State) : OneReply s (refuse r s) := .log s (.refused r)

theorem OneReply.sysRead (r : Byte) (s : State) : OneReply s (sysRead r s) := by
  obtain ⟨-, v, -, h⟩ | ⟨-, -, h⟩ := sysRead_cases r s <;> rw [h]
  · exact .log s (.value v)
  · exact .refuse .badRegister s

theorem OneReply.sysWrite (r : Byte) (v : Word) (s : State) : OneReply s (sysWrite r v s) := by
  obtain ⟨-, h⟩ | ⟨-, -, h⟩ | ⟨-, h⟩ := sysWrite_cases r v s <;> rw [h]
  · exact .refuse .badRegister s
  · exact .refuse .readOnly s
  · exact ⟨rfl, .done, rfl⟩

theorem OneReply.txTake (s : State) : OneReply s (txTake s) := by
  obtain ⟨-, h⟩ | ⟨-, h⟩ := txTake_cases s <;> rw [h]
  · exact .refuse .txEmpty s
  · exact ⟨rfl, _, rfl⟩

theorem OneReply.rxAppend (b : Byte) (s : State) : OneReply s (rxAppend b s) := by
  obtain ⟨-, -, h⟩ | ⟨-, h⟩ := rxAppend_cases b s <;> rw [h] <;> exact ⟨rfl, .done, rfl⟩

theorem OneReply.parse (e : Word) (s : State) : OneReply s (parse e s) := by
  obtain ⟨-, -, -, -, -, -, -, -, -, hinbox, r, hreplies, -⟩ := parse_frame e s
  exact ⟨hinbox, r, hreplies⟩

theorem OneReply.readReg (i : Byte) (s : State) : OneReply s (readReg i s) := by
  obtain ⟨-, h⟩ | ⟨-, -, h⟩ := readReg_cases i s <;> rw [h]
  · exact .refuse .noData s
  · exact .log s _

theorem OneReply.readRaw (j : Word) (s : State) : OneReply s (readRaw j s) := by
  obtain ⟨-, h⟩ | ⟨-, h⟩ := readRaw_cases j s <;> rw [h]
  · exact .refuse .rawRange s
  · exact .log s _

/-- Every command gives one reply. The wire rows are no commands, and give several. -/
theorem exec_command_oneReply {i : Instr} (hcommand : (commandMnemonic i).isSome = true) (s : State) :
    ∃ t, exec i s = .next t ∧ OneReply s t := by
  cases i with
  | sysReset => exact ⟨_, rfl, rfl, .done, rfl⟩
  | sysRd r => exact ⟨_, rfl, .sysRead r s⟩
  | sysWr r v => exact ⟨_, rfl, .sysWrite r v s⟩
  | crcInit | crcXorb | crcShift | crcByte => exact ⟨_, rfl, rfl, .done, rfl⟩
  | crcRead => exact ⟨_, rfl, .log s _⟩
  | encBuild => exact ⟨_, rfl, rfl, .done, rfl⟩
  | txPop => exact ⟨_, rfl, .txTake s⟩
  | rxClear => exact ⟨_, rfl, rfl, .done, rfl⟩
  | rxPush b => exact ⟨_, rfl, .rxAppend b s⟩
  | decParse e => exact ⟨_, rfl, .parse e s⟩
  | decRdreg i => exact ⟨_, rfl, .readReg i s⟩
  | decRdraw j => exact ⟨_, rfl, .readRaw j s⟩
  | req | reqF03 | rspN | rspNF03 | rspE | rspEF83 | exc01 | exc02 | exc03 | exc04 | exc05 | exc06 | exc08 | exc0A
  | exc0B | excUnknown => exact absurd hcommand Bool.false_ne_true

theorem serve_command_oneReply (w : Word64) (s : State) : ∃ t, serve (.command w) s = .next t ∧ OneReply s t := by
  obtain ⟨i, hi, h⟩ | ⟨-, h⟩ := serve_command_cases w s <;> rw [h]
  · exact exec_command_oneReply (onlyCommands_decodeCommand w i hi) s
  · exact ⟨_, rfl, .refuse .illegalCommand s⟩

/-- Settles O9: the word is a command, which gives one reply, or is refused, which is one reply. -/
theorem oneCommandOneReply : Obligations.OneCommandOneReply := by
  intro s w rest hinbox
  obtain ⟨t, ht, hqueue, r, hreplies⟩ := serve_command_oneReply w { s with inbox := rest }
  exact ⟨t, r, (step_of_inbox_cons hinbox).trans ht, hqueue, hreplies⟩

/-! ### States with the same view: what the operations keep -/

section

variable {s t : State}

theorem SameView.refl (s : State) : SameView s s := by
  constructor <;> intros <;> rfl

theorem SameView.log (h : SameView s t) {r r' : Reply} (hr : r = r') : SameView (s.log r) (t.log r') :=
  { h with replies := congrArg₂ List.cons hr h.replies }

theorem SameView.refuse (h : SameView s t) (r : RefuseReason) : SameView (refuse r s) (refuse r t) := h.log rfl

theorem SameView.raise (h : SameView s t) (e : ProtocolError) : SameView (raise e s) (raise e t) :=
  { h with decStatus := rfl, replies := congrArg (_ :: ·) h.replies }

theorem SameView.resetBlock (h : SameView s t) : SameView s.resetBlock t.resetBlock :=
  { SameView.refl State.reset with inbox := h.inbox, replies := h.replies }

theorem SameView.emptyRx (h : SameView s t) : SameView s.emptyRx t.emptyRx :=
  { h with rxbuf := fun _ _ => rfl, rxLen := rfl, rxOvf := rfl }

theorem SameView.clearResults (h : SameView s t) (e : Word) : SameView (s.clearResults e) (t.clearResults e) :=
  { h with
    expected := rfl, decStatus := rfl, rspAddr := rfl, rspFunc := rfl, byteCount := rfl, regCount := rfl,
    regs := fun _ _ => rfl, excCode := rfl, msgId := rfl, crcRcvd := rfl, crcCalc := rfl, crcOk := rfl, countOk := rfl }

theorem SameView.rxReset (h : SameView s t) : SameView (rxReset s) (rxReset t) := (h.emptyRx.clearResults 0).log rfl

theorem SameView.setCrc (h : SameView s t) {a a' : Word} (ha : a = a') : SameView (setCrc a s) (setCrc a' t) :=
  { h with crcAcc := ha, replies := congrArg (_ :: ·) h.replies }

/-! #### System registers -/

theorem SameView.statusWord_eq (h : SameView s t) : statusWord s = statusWord t := by
  simp only [statusWord, h.txValid, h.rxOvf, h.decStatus, h.crcOk, h.countOk]

/-- Every CSR is computed from fields that are in the view. -/
theorem SameView.csrRead_eq (h : SameView s t) (r : Byte) : csrRead s r = csrRead t r := by
  simp only [csrRead, ctrlWord, h.statusWord_eq, h.strictCrc, h.crcAcc, h.txPtr, h.rxLen, h.rspAddr, h.rspFunc,
    h.byteCount, h.regCount, h.excCode, h.msgId, h.crcRcvd, h.crcCalc, h.expected]

theorem SameView.sysRead (h : SameView s t) (r : Byte) : SameView (sysRead r s) (sysRead r t) := by
  unfold Machine.sysRead
  rw [h.csrRead_eq r]
  split
  · exact h.log rfl
  · exact h.refuse .badRegister

theorem SameView.sysWrite (h : SameView s t) (r : Byte) (v : Word) : SameView (sysWrite r v s) (sysWrite r v t) := by
  unfold Machine.sysWrite
  split
  · exact h.refuse .badRegister
  split
  · exact h.refuse .readOnly
  · exact { h with strictCrc := rfl, replies := congrArg (_ :: ·) h.replies }

/-! #### The transmit buffer -/

/-- A pending frame's pointer stands on one of its bytes (R134): what the view of TXBUF needs of the invariant. -/
def PointerInFrame (s : State) : Prop := s.txValid = true → s.txPtr.toNat ≤ 7

theorem pointerInFrame_txBuild (a f : Byte) (st n : Word) (s : State) : PointerInFrame (txBuild a f st n s) :=
  fun _ => Nat.zero_le 7

theorem pointerInFrame_txTake (hs : PointerInFrame s) : PointerInFrame (txTake s) := by
  obtain ⟨-, h⟩ | ⟨hv, h⟩ := txTake_cases s <;> rw [h]
  · exact hs
  · intro hpending
    have hne : s.txPtr + 1 ≠ 8 := of_decide_eq_true hpending
    have hle := hs hv
    change (s.txPtr + 1).toNat ≤ 7
    bv_omega

/-- All eight bytes that can be read are written. -/
theorem SameView.txBuild (h : SameView s t) (a f : Byte) (st n : Word) :
    SameView (txBuild a f st n s) (txBuild a f st n t) := by
  refine { h with txbuf := ?_, txPtr := rfl, txValid := rfl, replies := congrArg (_ :: ·) h.replies }
  intro _ k _ hk
  have hframe : 0 ≤ k ∧ k < 0 + (buildRequest a f st n).length := ⟨Nat.zero_le k, hk⟩
  change (s.txbuf.writeBytes 0 _).read k = (t.txbuf.writeBytes 0 _).read k
  rw [Memory.read_writeBytes, Memory.read_writeBytes, if_pos hframe, if_pos hframe]

/-- The byte handed out is pending, and what stays pending was pending. -/
theorem SameView.txTake (h : SameView s t) (hs : PointerInFrame s) : SameView (txTake s) (txTake t) := by
  unfold Machine.txTake
  rw [← h.txValid, ← h.txPtr]
  split
  · exact h.refuse .txEmpty
  next hidle =>
    have hv : s.txValid = true := by simpa using hidle
    have hle : s.txPtr.toNat ≤ 7 := hs hv
    have hbyte := h.txbuf hv s.txPtr.toNat le_rfl (by omega)
    refine { h with txPtr := rfl, txValid := rfl, txbuf := ?_, replies := ?_ }
    · intro _ a ha ha8
      have hp : (s.txPtr + 1).toNat ≤ a := ha
      exact h.txbuf hv a (by bv_omega) ha8
    · exact congrArg₂ (fun v => (Reply.value (zext16 v) :: ·)) hbyte h.replies

theorem SameView.txTakeN (n : Nat) (h : SameView s t) (hs : PointerInFrame s) :
    SameView (txTakeN n s) (txTakeN n t) := by
  induction n generalizing s t with
  | zero => exact h
  | succ n ih => exact ih (h.txTake hs) (pointerInFrame_txTake hs)

theorem SameView.transmit (h : SameView s t) (a f : Byte) (st n : Word) :
    SameView (transmit a f st n s) (transmit a f st n t) :=
  (h.txBuild a f st n).txTakeN Config.reqLen (pointerInFrame_txBuild a f st n s)

/-! #### The receive buffer -/

theorem SameView.readBytes_eq (h : SameView s t) (n : Nat) (hn : n ≤ s.rxLen.toNat) :
    s.rxbuf.readBytes 0 n = t.rxbuf.readBytes 0 n :=
  Memory.readBytes_congr _ _ _ _ fun a _ ha => h.rxbuf a (by omega)

/-- The index that becomes readable is the one written. -/
theorem SameView.rxAppend (h : SameView s t) (b : Byte) : SameView (rxAppend b s) (rxAppend b t) := by
  unfold Machine.rxAppend
  rw [← h.rxLen]
  split
  next hroom =>
    refine { h with rxLen := rfl, rxbuf := ?_, replies := congrArg (_ :: ·) h.replies }
    intro a ha
    have hlen : a < (s.rxLen + 1).toNat := ha
    simp only [State.log_rxbuf, Memory.read_write]
    split
    · rfl
    · exact h.rxbuf a (by bv_omega)
  · exact { h with rxLen := rfl, rxOvf := rfl, replies := congrArg (_ :: ·) h.replies }

theorem SameView.rxAppendAll (bytes : List Byte) (h : SameView s t) :
    SameView (rxAppendAll bytes s) (rxAppendAll bytes t) := by
  induction bytes generalizing s t with
  | nil => exact h
  | cons b bytes ih => exact ih (h.rxAppend b)

/-! #### Parsing: every byte read lies below `RX_LEN` -/

theorem SameView.parseError (h : SameView s t) (hlen : 5 ≤ s.rxLen.toNat) :
    SameView (parseError s) (parseError t) := by
  unfold Machine.parseError
  rw [← h.readBytes_eq 3 (by omega), ← h.rxbuf 2 (by omega), ← h.rxbuf 3 (by omega), ← h.rxbuf 4 (by omega)]
  apply SameView.raise
  exact { h with excCode := rfl, msgId := rfl, crcCalc := rfl, crcRcvd := rfl, crcOk := rfl }

theorem SameView.parseOk (h : SameView s t) (n : Nat) (regs : List Word) :
    SameView (parseOk s n regs) (parseOk t n regs) :=
  { h with
    regCount := rfl, regs := fun _ _ => rfl, countOk := congrArg (countMeets n) h.expected, decStatus := rfl,
    replies := congrArg (_ :: ·) h.replies }

theorem SameView.registers_eq (h : SameView s t) {bc : Nat} (hlen : 3 + bc + 2 ≤ s.rxLen.toNat) :
    ((List.range (bc / 2)).map fun k => be16 (s.rxbuf.read (3 + 2 * k)) (s.rxbuf.read (3 + 2 * k + 1))) =
    (List.range (bc / 2)).map fun k => be16 (t.rxbuf.read (3 + 2 * k)) (t.rxbuf.read (3 + 2 * k + 1)) := by
  refine List.map_congr_left fun k hk => ?_
  have hk' : k < bc / 2 := List.mem_range.mp hk
  rw [h.rxbuf (3 + 2 * k) (by omega), h.rxbuf (3 + 2 * k + 1) (by omega)]

theorem SameView.parseJudge (h : SameView s t) {bc : Nat} (hlen : 3 + bc + 2 ≤ s.rxLen.toNat) :
    SameView (parseJudge s bc) (parseJudge t bc) := by
  unfold Machine.parseJudge
  rw [← h.readBytes_eq (3 + bc) (by omega), ← h.rxbuf (3 + bc) (by omega), ← h.rxbuf (3 + bc + 1) (by omega)]
  extract_lets n regs computed rcvd judged regs' judged'
  have hregs : regs = regs' := h.registers_eq hlen
  have hjudged : SameView judged judged' := { h with crcCalc := rfl, crcRcvd := rfl, crcOk := rfl }
  rw [← hjudged.strictCrc, ← hregs]
  split
  · exact hjudged.raise .crcMismatch
  · exact hjudged.parseOk n regs

theorem SameView.parseNormal (h : SameView s t) (hlen : 5 ≤ s.rxLen.toNat) :
    SameView (parseNormal s) (parseNormal t) := by
  unfold Machine.parseNormal
  rw [← h.rxbuf 2 (by omega), ← h.rxLen]
  extract_lets bc counted counted'
  have hcounted : SameView counted counted' := { h with rxLen := rfl, byteCount := rfl }
  split
  · exact hcounted.raise .shortResponse
  · exact hcounted.parseJudge (Nat.le_of_not_lt ‹_›)

theorem SameView.parseHeader (h : SameView s t) (hlen : 5 ≤ s.rxLen.toNat) :
    SameView (parseHeader s) (parseHeader t) := by
  unfold Machine.parseHeader
  rw [← h.rxbuf 0 (by omega), ← h.rxbuf 1 (by omega)]
  extract_lets f headed headed'
  have hheaded : SameView headed headed' := { h with rspAddr := rfl, rspFunc := rfl }
  split
  · exact hheaded.parseError hlen
  · exact hheaded.parseNormal hlen

theorem SameView.parse (h : SameView s t) (e : Word) : SameView (parse e s) (parse e t) := by
  unfold Machine.parse
  rw [← h.rxLen]
  split
  · exact (h.clearResults e).raise .shortResponse
  · exact (h.clearResults e).parseHeader (Nat.le_of_not_lt ‹_›)

theorem SameView.receive (h : SameView s t) (x : Word) (bytes : List Byte) :
    SameView (receive x bytes s) (receive x bytes t) :=
  (h.rxReset.rxAppendAll bytes).parse x

/-! #### Reading results: a read is refused where storage is out of the view -/

theorem SameView.readReg (h : SameView s t) (i : Byte) : SameView (readReg i s) (readReg i t) := by
  unfold Machine.readReg
  rw [← h.decStatus, ← h.regCount]
  split
  · exact h.refuse .noData
  next hcount =>
    have hi : i.toNat < s.regCount.toNat := by omega
    exact h.log (congrArg Reply.value (h.regs i.toNat hi))

theorem SameView.readRaw (h : SameView s t) (j : Word) : SameView (readRaw j s) (readRaw j t) := by
  unfold Machine.readRaw
  rw [← h.rxLen]
  split
  · exact h.refuse .rawRange
  next hj => exact h.log (congrArg (Reply.value <| zext16 ·) (h.rxbuf j.toNat (Nat.lt_of_not_le hj)))

/-! #### Instructions, inputs, steps -/

/-- Two outcomes a host cannot tell apart: both a next state, with the same view. -/
def SameOutcome (o o' : Host.Outcome State Fault Refusal) : Prop :=
  ∃ s t, o = .next s ∧ o' = .next t ∧ SameView s t

theorem SameView.toOutcome (h : SameView s t) : SameOutcome (.next s) (.next t) := ⟨s, t, rfl, rfl, h⟩

theorem SameView.exec (h : SameView s t) (hs : PointerInFrame s) (i : Instr) : SameOutcome (exec i s) (exec i t) := by
  cases i with
  | sysReset => exact (h.resetBlock.log rfl).toOutcome
  | sysRd r => exact (h.sysRead r).toOutcome
  | sysWr r v => exact (h.sysWrite r v).toOutcome
  | crcInit => exact (h.setCrc rfl).toOutcome
  | crcXorb b => exact (h.setCrc (congrArg (· ^^^ zext16 b) h.crcAcc)).toOutcome
  | crcShift => exact (h.setCrc (congrArg crcShift1 h.crcAcc)).toOutcome
  | crcByte b => exact (h.setCrc (congrArg (crcUpdate · b) h.crcAcc)).toOutcome
  | crcRead => exact (h.log (congrArg (fun c => Reply.bytes (lo c) (hi c)) h.crcAcc)).toOutcome
  | encBuild a f st n => exact (h.txBuild a f st n).toOutcome
  | txPop => exact (h.txTake hs).toOutcome
  | rxClear => exact h.rxReset.toOutcome
  | rxPush b => exact (h.rxAppend b).toOutcome
  | decParse e => exact (h.parse e).toOutcome
  | decRdreg i => exact (h.readReg i).toOutcome
  | decRdraw j => exact (h.readRaw j).toOutcome
  | req | reqF03 => exact (h.transmit _ _ _ _).toOutcome
  | rspN | rspNF03 | rspE | rspEF83 | exc01 | exc02 | exc03 | exc04 | exc05 | exc06 | exc08 | exc0A | exc0B
  | excUnknown => exact (h.receive _ _).toOutcome

theorem SameView.serve (h : SameView s t) (hs : PointerInFrame s) (x : Input) :
    SameOutcome (serve x s) (serve x t) := by
  unfold Machine.serve
  split
  · exact h.exec hs _
  · exact (h.refuse .illegalCommand).toOutcome
  · exact (h.receive _ _).toOutcome

theorem SameView.step (h : SameView s t) (hs : PointerInFrame s) : SameOutcome (step s) (step t) := by
  cases hinbox : s.inbox with
  | nil =>
    rw [step_of_inbox_nil hinbox, step_of_inbox_nil (h.inbox.symm.trans hinbox)]
    exact h.toOutcome
  | cons x rest =>
    rw [step_of_inbox_cons hinbox, step_of_inbox_cons (h.inbox.symm.trans hinbox)]
    have hrest : SameView { s with inbox := rest } { t with inbox := rest } := { h with inbox := rfl }
    exact hrest.serve hs x

end

/-- Settles O57: every operation keeps the view, by a lemma each; of the invariant it needs the transmit pointer's
bound. -/
theorem hiddenStorageIsNotObservable : Obligations.HiddenStorageIsNotObservable := by
  intro s t s' t' hs _ h hs' ht'
  obtain ⟨u, v, hu, hv, hview⟩ := h.step hs.tx.pending
  obtain rfl : s' = u := Host.Outcome.next.inj (hs'.symm.trans hu)
  obtain rfl : t' = v := Host.Outcome.next.inj (ht'.symm.trans hv)
  exact hview

end Sys2Proof.Machine

/-! # What each part of the block holds, and the invariant

The parts of R20 and which instructions write them, proved once for all instructions; the part a frame rule names is
then kept, and the invariant is kept part by part: by the frame where the part is not written, by the operation's own
lemma where it is. -/

namespace Sys2Proof.Machine

/-! ### The state an instruction leaves -/

/-- The state after `i`. Every instruction answers one. -/
def executed (i : Instr) (s : State) : State :=
  match exec i s with
  | .next t => t
  | .fault _ | .refused _ => s

theorem exec_eq_next (i : Instr) (s : State) : exec i s = .next (executed i s) := by
  obtain ⟨t, h⟩ := exec_next i s
  simp only [executed, h]

theorem executed_of_requestOf {i : Instr} {a f : Byte} {st n : Word} (h : requestOf i = some (a, f, st, n))
    (s : State) : executed i s = transmit a f st n s := by
  cases i <;> cases h <;> rfl

theorem executed_of_responseOf {i : Instr} {x : Word} {bytes : List Byte} (h : responseOf i = some (x, bytes))
    (s : State) : executed i s = receive x bytes s := by
  cases i <;> cases h <;> rfl

/-! ### The parts of the state (R20) -/

/-- The parts of the block that have writers of their own. -/
inductive Part where
  | ctrl
  | crc
  | tx
  | rx
  | results
deriving DecidableEq

/-- One part of `s`, every other field as after reset. -/
def State.only (s : State) : Part → State
  | .ctrl => { State.reset with strictCrc := s.strictCrc }
  | .crc => { State.reset with crcAcc := s.crcAcc }
  | .tx => { State.reset with txbuf := s.txbuf, txPtr := s.txPtr, txValid := s.txValid }
  | .rx => { State.reset with rxbuf := s.rxbuf, rxLen := s.rxLen, rxOvf := s.rxOvf }
  | .results =>
    { State.reset with
      expected := s.expected, decStatus := s.decStatus, rspAddr := s.rspAddr, rspFunc := s.rspFunc,
      byteCount := s.byteCount, regCount := s.regCount, regs := s.regs, excCode := s.excCode, msgId := s.msgId,
      crcRcvd := s.crcRcvd, crcCalc := s.crcCalc, crcOk := s.crcOk, countOk := s.countOk }

/-- The instructions that may change a part (R20). -/
def writes : Part → Instr → Bool
  | .ctrl => writesCtrl
  | .crc => writesCrc
  | .tx => writesTx
  | .rx => writesRx
  | .results => writesResults

/-- From `s` to `t` no part changed that is not among `ps`. -/
def ChangesOnly (ps : List Part) (s t : State) : Prop := ∀ p, p ∉ ps → t.only p = s.only p

theorem ChangesOnly.refl (ps : List Part) (s : State) : ChangesOnly ps s s := fun _ _ => rfl

theorem ChangesOnly.trans {ps qs : List Part} {s t u : State} (h : ChangesOnly ps s t) (h' : ChangesOnly qs t u) :
    ChangesOnly (ps ++ qs) s u := by
  intro p hp
  obtain ⟨hps, hqs⟩ : p ∉ ps ∧ p ∉ qs := by simpa using hp
  exact (h' p hqs).trans (h p hps)

theorem ChangesOnly.mono {ps qs : List Part} {s t : State} (h : ChangesOnly ps s t) (hsub : ps ⊆ qs) :
    ChangesOnly qs s t :=
  fun p hp => h p fun hps => hp (hsub hps)

theorem ChangesOnly.log (s : State) (r : Reply) : ChangesOnly [] s (s.log r) := by
  intro p _
  cases p <;> rfl

theorem ChangesOnly.sysRead (r : Byte) (s : State) : ChangesOnly [] s (sysRead r s) := by
  obtain ⟨-, v, -, h⟩ | ⟨-, -, h⟩ := sysRead_cases r s <;> rw [h] <;> exact .log s _

theorem ChangesOnly.readReg (i : Byte) (s : State) : ChangesOnly [] s (readReg i s) := by
  obtain ⟨-, h⟩ | ⟨-, -, h⟩ := readReg_cases i s <;> rw [h] <;> exact .log s _

theorem ChangesOnly.readRaw (j : Word) (s : State) : ChangesOnly [] s (readRaw j s) := by
  obtain ⟨-, h⟩ | ⟨-, h⟩ := readRaw_cases j s <;> rw [h] <;> exact .log s _

theorem ChangesOnly.sysWrite (r : Byte) (v : Word) (s : State) : ChangesOnly [.ctrl] s (sysWrite r v s) := by
  obtain ⟨-, h⟩ | ⟨-, -, h⟩ | ⟨-, h⟩ := sysWrite_cases r v s <;> rw [h]
  · exact (ChangesOnly.log s _).mono (List.nil_subset _)
  · exact (ChangesOnly.log s _).mono (List.nil_subset _)
  · intro p hp
    cases p with
    | ctrl => simp at hp
    | crc | tx | rx | results => rfl

theorem ChangesOnly.setCrc (a : Word) (s : State) : ChangesOnly [.crc] s (setCrc a s) := by
  intro p hp
  cases p with
  | crc => simp at hp
  | ctrl | tx | rx | results => rfl

theorem ChangesOnly.txBuild (a f : Byte) (st n : Word) (s : State) : ChangesOnly [.tx] s (txBuild a f st n s) := by
  intro p hp
  cases p with
  | tx => simp at hp
  | ctrl | crc | rx | results => rfl

theorem ChangesOnly.txTake (s : State) : ChangesOnly [.tx] s (txTake s) := by
  obtain ⟨-, h⟩ | ⟨-, h⟩ := txTake_cases s <;> rw [h]
  · exact (ChangesOnly.log s _).mono (List.nil_subset _)
  · intro p hp
    cases p with
    | tx => simp at hp
    | ctrl | crc | rx | results => rfl

theorem ChangesOnly.txTakeN (n : Nat) (s : State) : ChangesOnly [.tx] s (txTakeN n s) := by
  induction n generalizing s with
  | zero => exact .refl _ s
  | succ n ih => exact ((ChangesOnly.txTake s).trans (ih _)).mono (by simp)

theorem ChangesOnly.transmit (a f : Byte) (st n : Word) (s : State) : ChangesOnly [.tx] s (transmit a f st n s) :=
  ((ChangesOnly.txBuild a f st n s).trans (.txTakeN Config.reqLen _)).mono (by simp)

theorem ChangesOnly.rxReset (s : State) : ChangesOnly [.rx, .results] s (rxReset s) := by
  intro p hp
  cases p with
  | rx | results => simp at hp
  | ctrl | crc | tx => rfl

theorem ChangesOnly.rxAppend (b : Byte) (s : State) : ChangesOnly [.rx] s (rxAppend b s) := by
  intro p hp
  obtain ⟨-, -, h⟩ | ⟨-, h⟩ := rxAppend_cases b s <;> rw [h]
  all_goals
    cases p with
    | rx => simp at hp
    | ctrl | crc | tx | results => rfl

theorem ChangesOnly.rxAppendAll (bytes : List Byte) (s : State) : ChangesOnly [.rx] s (rxAppendAll bytes s) := by
  induction bytes generalizing s with
  | nil => exact .refl _ s
  | cons b bytes ih => exact ((ChangesOnly.rxAppend b s).trans (ih _)).mono (by simp)

theorem ChangesOnly.parse (e : Word) (s : State) : ChangesOnly [.results] s (parse e s) := by
  obtain ⟨hcrc, htxbuf, htxPtr, htxValid, hrxbuf, hrxLen, hrxOvf, hctrl, -⟩ := parse_frame e s
  intro p hp
  cases p with
  | results => simp at hp
  | ctrl => simp only [State.only, hctrl]
  | crc => simp only [State.only, hcrc]
  | tx => simp only [State.only, htxbuf, htxPtr, htxValid]
  | rx => simp only [State.only, hrxbuf, hrxLen, hrxOvf]

theorem ChangesOnly.receive (x : Word) (bytes : List Byte) (s : State) :
    ChangesOnly [.rx, .results] s (receive x bytes s) :=
  (((ChangesOnly.rxReset s).trans (.rxAppendAll bytes _)).trans (.parse x _)).mono (by simp)

/-- A bound on the parts changed is a frame for `i` where each of them is one that `i` writes. -/
theorem ChangesOnly.frame {ps : List Part} {s t : State} {i : Instr} (h : ChangesOnly ps s t)
    (hps : ps.all (writes · i) = true) {p : Part} (hp : writes p i = false) : t.only p = s.only p :=
  h p fun hmem => Bool.false_ne_true (hp.symm.trans (List.all_eq_true.mp hps p hmem))

/-- The frame of every instruction: a part that it does not write is as before. -/
theorem executed_only {p : Part} {i : Instr} (hp : writes p i = false) (s : State) :
    (executed i s).only p = s.only p := by
  cases i with
  | sysReset => cases p <;> exact absurd hp.symm Bool.false_ne_true
  | sysRd r => exact ChangesOnly.sysRead r s p List.not_mem_nil
  | sysWr r v => exact (ChangesOnly.sysWrite r v s).frame rfl hp
  | crcInit | crcXorb | crcShift | crcByte => exact (ChangesOnly.setCrc _ s).frame rfl hp
  | crcRead => exact ChangesOnly.log s _ p List.not_mem_nil
  | encBuild a f st n => exact (ChangesOnly.txBuild a f st n s).frame rfl hp
  | txPop => exact (ChangesOnly.txTake s).frame rfl hp
  | rxClear => exact (ChangesOnly.rxReset s).frame rfl hp
  | rxPush b => exact (ChangesOnly.rxAppend b s).frame rfl hp
  | decParse e => exact (ChangesOnly.parse e s).frame rfl hp
  | decRdreg i => exact ChangesOnly.readReg i s p List.not_mem_nil
  | decRdraw j => exact ChangesOnly.readRaw j s p List.not_mem_nil
  | req | reqF03 => exact (ChangesOnly.transmit _ _ _ _ s).frame rfl hp
  | rspN | rspNF03 | rspE | rspEF83 | exc01 | exc02 | exc03 | exc04 | exc05 | exc06 | exc08 | exc0A | exc0B
  | excUnknown =>
    exact (ChangesOnly.receive _ _ s).frame rfl hp

theorem strictCrc_of_only {s t : State} (h : t.only .ctrl = s.only .ctrl) : t.strictCrc = s.strictCrc := by
  simpa only [State.only] using congrArg State.strictCrc h

theorem crcAcc_of_only {s t : State} (h : t.only .crc = s.only .crc) : t.crcAcc = s.crcAcc := by
  simpa only [State.only] using congrArg State.crcAcc h

theorem tx_of_only {s t : State} (h : t.only .tx = s.only .tx) :
    t.txbuf = s.txbuf ∧ t.txPtr = s.txPtr ∧ t.txValid = s.txValid := by
  simpa [State.only] using h

theorem rx_of_only {s t : State} (h : t.only .rx = s.only .rx) :
    t.rxbuf = s.rxbuf ∧ t.rxLen = s.rxLen ∧ t.rxOvf = s.rxOvf := by
  simpa [State.only] using h

theorem results_of_only {s t : State} (h : t.only .results = s.only .results) :
    t.expected = s.expected ∧ t.decStatus = s.decStatus ∧ t.rspAddr = s.rspAddr ∧ t.rspFunc = s.rspFunc ∧
    t.byteCount = s.byteCount ∧ t.regCount = s.regCount ∧ t.regs = s.regs ∧ t.excCode = s.excCode ∧
    t.msgId = s.msgId ∧ t.crcRcvd = s.crcRcvd ∧ t.crcCalc = s.crcCalc ∧ t.crcOk = s.crcOk ∧ t.countOk = s.countOk := by
  simpa [State.only] using h

/-- Settles O19: CTRL is a part of its own. -/
theorem onlySysWrAndResetChangeCtrl : Obligations.OnlySysWrAndResetChangeCtrl := by
  intro i s hi
  exact ⟨_, exec_eq_next i s, strictCrc_of_only (executed_only (p := .ctrl) hi s)⟩

/-- Settles O26: the accumulator is a part of its own. -/
theorem crcAccumulatorIsPrivate : Obligations.CrcAccumulatorIsPrivate := by
  intro i s hi
  exact ⟨_, exec_eq_next i s, crcAcc_of_only (executed_only (p := .crc) hi s)⟩

/-- Settles O46: each buffer with its pointer and flag is a part of its own. -/
theorem buffersChangeByTheirOwnUnitOnly : Obligations.BuffersChangeByTheirOwnUnitOnly := by
  intro i s
  refine ⟨_, exec_eq_next i s, fun htx => ?_, fun hrx => ?_⟩
  · exact tx_of_only (executed_only (p := .tx) htx s)
  · exact rx_of_only (executed_only (p := .rx) hrx s)

/-! ### The writers of each part, by name -/

theorem writesTx_cases {i : Instr} (h : writesTx i = true) :
    i = .sysReset ∨ (∃ a f st n, i = .encBuild a f st n) ∨ i = .txPop ∨ ∃ r, requestOf i = some r := by
  cases i with
  | sysReset => exact .inl rfl
  | encBuild a f st n => exact .inr (.inl ⟨a, f, st, n, rfl⟩)
  | txPop => exact .inr (.inr (.inl rfl))
  | req | reqF03 => exact .inr (.inr (.inr ⟨_, rfl⟩))
  | _ => exact absurd h Bool.false_ne_true

theorem writesRx_cases {i : Instr} (h : writesRx i = true) :
    i = .sysReset ∨ i = .rxClear ∨ (∃ b, i = .rxPush b) ∨ ∃ r, responseOf i = some r := by
  unfold writesRx at h
  split at h
  · exact .inl rfl
  · exact .inr (.inl rfl)
  · exact .inr (.inr (.inl ⟨_, rfl⟩))
  · exact .inr (.inr (.inr (Option.isSome_iff_exists.mp h)))

theorem writesResults_cases {i : Instr} (h : writesResults i = true) :
    i = .sysReset ∨ i = .rxClear ∨ (∃ e, i = .decParse e) ∨ ∃ r, responseOf i = some r := by
  unfold writesResults at h
  split at h
  · exact .inl rfl
  · exact .inr (.inl rfl)
  · exact .inr (.inr (.inl ⟨_, rfl⟩))
  · exact .inr (.inr (.inr (Option.isSome_iff_exists.mp h)))

/-! ### The receive buffer's flag and content -/

theorem rxOvf_of_rxAppend (b : Byte) {s : State} (hs : s.rxOvf = true) : (rxAppend b s).rxOvf = true := by
  obtain ⟨-, -, h⟩ | ⟨-, h⟩ := rxAppend_cases b s <;> rw [h]
  · exact hs
  · rfl

/-- Settles O34: an instruction that does not write the receive side keeps the flag, and of those that do only RX.PUSH
is left. -/
theorem overflowIsSticky : Obligations.OverflowIsSticky := by
  intro i s hs hclear hreset hresponse
  refine ⟨_, exec_eq_next i s, ?_⟩
  cases hi : writesRx i with
  | false =>
    obtain ⟨-, -, hovf⟩ := rx_of_only (executed_only (p := .rx) hi s)
    exact hovf.trans hs
  | true =>
    obtain h | h | ⟨b, rfl⟩ | ⟨r, h⟩ := writesRx_cases hi
    · exact absurd h hreset
    · exact absurd h hclear
    · exact rxOvf_of_rxAppend b hs
    · exact absurd (h.symm.trans hresponse) (Option.some_ne_none r)

/-- Bytes pushed into the empty buffer: as many as fit are held, in order. -/
theorem readBytes_rxAppendAll_rxReset (raw : List Byte) (s : State) :
    (rxAppendAll raw (rxReset s)).rxbuf.readBytes 0 (min raw.length 260) = raw.take 260 := by
  obtain ⟨-, hread, -, -⟩ := rxAppendAll_spec raw (rxReset s)
  apply List.ext_getElem?
  intro k
  by_cases hk : k < min raw.length 260
  · obtain ⟨hraw, hcap⟩ : k < raw.length ∧ k < 260 := by omega
    rw [Memory.getElem?_readBytes _ _ _ _ hk, hread]
    simp [hraw, hcap]
  · have hk' : min raw.length 260 ≤ k := Nat.le_of_not_lt hk
    rw [List.getElem?_eq_none (by simpa using hk'), List.getElem?_eq_none (by simpa [min_comm] using hk')]

/-- Settles O33: the load is `rxAppendAll` on the cleared buffer. -/
theorem rxLoadHoldsTheBytes : Obligations.RxLoadHoldsTheBytes := by
  intro raw s
  obtain ⟨hlen, -, hovf, -⟩ := rxAppendAll_spec raw (rxReset s)
  have hlen' : (rxAppendAll raw (rxReset s)).rxLen.toNat = min raw.length 260 := by simpa using hlen
  refine ⟨rxAppendAll raw (rxReset s), ?_, hlen', ?_, ?_⟩
  · exact (execAll_cons .rxClear _ s (rxReset s) rfl).trans (execAll_rxPush raw _)
  · rw [hlen']
    exact readBytes_rxAppendAll_rxReset raw s
  · cases raw with
    | nil => rfl
    | cons b raw => simpa using hovf

/-! ### CTRL and STATUS -/

theorem getLsbD_flagBit (b : Bool) (k : Nat) : (flagBit b).getLsbD k = (b && decide (k = 0)) := by
  cases b <;> simp [flagBit]

theorem flagBit_getLsbD_zero (v : Word) : flagBit (v.getLsbD 0) = v &&& 0x0001 := by
  apply BitVec.eq_of_getLsbD_eq
  intro k _
  have hone : BitVec.getLsbD (0x0001 : Word) k = decide (k = 0) := by simp
  rw [getLsbD_flagBit, BitVec.getLsbD_and, hone]
  by_cases hk : k = 0 <;> simp [hk]

/-- Settles O18: CTRL is STRICT_CRC as a number, which the write set to bit 0 of its operand. -/
theorem ctrlReadsBackBitZero : Obligations.CtrlReadsBackBitZero := by
  intro v s
  rw [execAll_cons _ _ _ _ rfl, execAll_cons _ _ _ _ rfl, execAll_nil, ← flagBit_getLsbD_zero]
  rfl

theorem statusCode_le (d : DecStatus) : (statusCode d).toNat ≤ 4 := by
  cases d <;> decide

theorem statusCode_inj {d d' : DecStatus} : d = d' ↔ statusCode d = statusCode d' := by
  refine ⟨congrArg statusCode, fun h => ?_⟩
  cases d <;> cases d' <;> simp [statusCode] at h ⊢

/-- STATUS bit by bit: four flags and the number of the outcome, each in its place. -/
theorem getLsbD_statusWord (s : State) (k : Nat) (hk : k < 16) :
    (statusWord s).getLsbD k =
      (s.txValid && decide (k = 0) || s.rxOvf && decide (k = 1) ||
        decide (2 ≤ k) && (statusCode s.decStatus).getLsbD (k - 2) ||
        s.crcOk && decide (k = 5) || s.countOk && decide (k = 6)) := by
  simp only [statusWord, BitVec.getLsbD_or, BitVec.getLsbD_shiftLeft, BitVec.getLsbD_setWidth, getLsbD_flagBit]
  interval_cases k <;> simp

theorem extractLsb'_statusWord_outcome (s : State) : (statusWord s).extractLsb' 2 3 = statusCode s.decStatus := by
  apply BitVec.eq_of_getLsbD_eq
  intro k hk
  rw [BitVec.getLsbD_extractLsb', getLsbD_statusWord s (2 + k) (by omega)]
  interval_cases k <;> simp

theorem extractLsb'_statusWord_above (s : State) : (statusWord s).extractLsb' 7 9 = 0 := by
  apply BitVec.eq_of_getLsbD_eq
  intro k hk
  have hcode : (statusCode s.decStatus).getLsbD (7 + k - 2) = false := BitVec.getLsbD_of_ge _ _ (by omega)
  rw [BitVec.getLsbD_extractLsb', getLsbD_statusWord s (7 + k) (by omega), hcode]
  simp [show 7 + k ≠ 1 by omega, show 7 + k ≠ 5 by omega, show 7 + k ≠ 6 by omega]

/-- Settles O16: the value read is `statusWord`, taken bit by bit. -/
theorem statusRegisterLayout : Obligations.StatusRegisterLayout := by
  intro s
  have outcome (d : DecStatus) : s.decStatus = d ↔ (statusWord s).extractLsb' 2 3 = statusCode d := by
    rw [extractLsb'_statusWord_outcome]
    exact statusCode_inj
  refine ⟨statusWord s, rfl, ?_, ?_, outcome .none, outcome .ok, outcome .shortResponse, outcome .deviceError,
    outcome .crcMismatch, ?_, ?_, ?_, extractLsb'_statusWord_above s⟩
  · rw [getLsbD_statusWord s 0 (by decide)]
    simp
  · rw [getLsbD_statusWord s 1 (by decide)]
    simp
  · rw [extractLsb'_statusWord_outcome]
    exact statusCode_le s.decStatus
  · rw [getLsbD_statusWord s 5 (by decide)]
    simp
  · rw [getLsbD_statusWord s 6 (by decide)]
    simp

/-! ### The invariant of the transmit side -/

section

variable {s t : State}

/-- The invariant of a part reads that part only. -/
theorem TxInv.of_only (h : TxInv s) (ht : t.only .tx = s.only .tx) : TxInv t := by
  obtain ⟨htxbuf, htxPtr, htxValid⟩ := tx_of_only ht
  constructor <;> simp only [htxbuf, htxPtr, htxValid]
  exacts [h.pending, h.idle, h.canonical, h.bounded]

theorem txInv_reset : TxInv State.reset := by
  constructor <;> decide

/-- The eight bytes of the frame go to indices 0 to 7. -/
theorem TxInv.txBuild (h : TxInv s) (a f : Byte) (st n : Word) : TxInv (txBuild a f st n s) where
  pending _ := Nat.zero_le 7
  idle _ := .inl rfl
  canonical := Memory.wf_writeBytes _ _ _ h.canonical
  bounded := Memory.below_writeBytes 8 _ 0 (buildRequest a f st n) le_rfl h.bounded

theorem TxInv.txTake (h : TxInv s) : TxInv (txTake s) where
  pending := pointerInFrame_txTake h.pending
  idle := by
    obtain ⟨-, ht⟩ | ⟨-, ht⟩ := txTake_cases s <;> rw [ht]
    · exact h.idle
    · intro hlast
      exact .inr (by simpa using hlast)
  canonical := by simpa only [txbuf_of_txTake] using h.canonical
  bounded := by simpa only [txbuf_of_txTake] using h.bounded

theorem TxInv.txTakeN (n : Nat) (h : TxInv s) : TxInv (txTakeN n s) := by
  induction n generalizing s with
  | zero => exact h
  | succ n ih => exact ih h.txTake

theorem TxInv.transmit (h : TxInv s) (a f : Byte) (st n : Word) : TxInv (transmit a f st n s) :=
  (h.txBuild a f st n).txTakeN Config.reqLen

theorem TxInv.executed (h : TxInv s) (i : Instr) : TxInv (executed i s) := by
  cases hi : writesTx i with
  | false => exact h.of_only (executed_only (p := .tx) hi s)
  | true =>
    obtain rfl | ⟨a, f, st, n, rfl⟩ | rfl | ⟨⟨a, f, st, n⟩, hr⟩ := writesTx_cases hi
    · exact txInv_reset.of_only rfl
    · exact h.txBuild a f st n
    · exact h.txTake
    · rw [executed_of_requestOf hr]
      exact h.transmit a f st n

/-! ### The invariant of the receive side -/

theorem RxInv.of_only (h : RxInv s) (ht : t.only .rx = s.only .rx) : RxInv t := by
  obtain ⟨hrxbuf, hrxLen, hrxOvf⟩ := rx_of_only ht
  constructor <;> simp only [hrxbuf, hrxLen, hrxOvf]
  exacts [h.length, h.full, h.canonical, h.bounded]

theorem rxInv_reset : RxInv State.reset := by
  constructor <;> decide

theorem rxInv_rxReset (s : State) : RxInv (rxReset s) := rxInv_reset.of_only rfl

/-- With room left the byte is stored at `RX_LEN`; else the length is 260, as the flag then says. -/
theorem RxInv.rxAppend (h : RxInv s) (b : Byte) : RxInv (rxAppend b s) := by
  have hcap : s.rxLen.toNat ≤ 260 := h.length
  obtain ⟨hroom, hsucc, ht⟩ | ⟨hfull, ht⟩ := rxAppend_cases b s <;> rw [ht]
  · refine ⟨?_, ?_, Memory.wf_write _ _ _ h.canonical, ?_⟩
    · exact hsucc.trans_le hroom
    · intro hovf
      exact absurd (h.full hovf) hroom.ne
    · refine Memory.below_write _ _ _ _ ?_ (Memory.below_mono _ _ _ ?_ h.bounded)
      · exact (Nat.lt_succ_self _).trans_eq hsucc.symm
      · exact (Nat.le_succ _).trans_eq hsucc.symm
  · exact ⟨h.length, fun _ => le_antisymm hcap hfull, h.canonical, h.bounded⟩

theorem RxInv.rxAppendAll (bytes : List Byte) (h : RxInv s) : RxInv (rxAppendAll bytes s) := by
  induction bytes generalizing s with
  | nil => exact h
  | cons b bytes ih => exact ih (h.rxAppend b)

theorem rxInv_receive (x : Word) (bytes : List Byte) (s : State) : RxInv (receive x bytes s) :=
  ((rxInv_rxReset s).rxAppendAll bytes).of_only (ChangesOnly.parse x _ .rx (by decide))

theorem RxInv.executed (h : RxInv s) (i : Instr) : RxInv (executed i s) := by
  cases hi : writesRx i with
  | false => exact h.of_only (executed_only (p := .rx) hi s)
  | true =>
    obtain rfl | rfl | ⟨b, rfl⟩ | ⟨⟨x, bytes⟩, hr⟩ := writesRx_cases hi
    · exact rxInv_reset.of_only rfl
    · exact rxInv_rxReset s
    · exact h.rxAppend b
    · rw [executed_of_responseOf hr]
      exact rxInv_receive x bytes s

/-! ### The invariant of the result fields -/

theorem ResultInv.of_only (h : ResultInv s) (ht : t.only .results = s.only .results) : ResultInv t := by
  obtain ⟨hexpected, hdecStatus, hrspAddr, hrspFunc, hbyteCount, hregCount, hregs, hexcCode, hmsgId, hcrcRcvd, hcrcCalc,
    hcrcOk, hcountOk⟩ := results_of_only ht
  constructor <;> simp only [hexpected, hdecStatus, hrspAddr, hrspFunc, hbyteCount, hregCount, hregs, hexcCode, hmsgId,
    hcrcRcvd, hcrcCalc, hcrcOk, hcountOk]
  exacts [h.entries, h.regsOnlyOk, h.halfCount, h.countOk, h.crcOk, h.mismatch, h.noCrc, h.byteCount, h.device,
    h.noDevice, h.untouched]

theorem resultInv_reset : ResultInv State.reset := by
  constructor <;> decide

theorem resultInv_rxReset (s : State) : ResultInv (rxReset s) := resultInv_reset.of_only rfl

theorem crcMatches_iff (rcvd computed : Word) : crcMatches rcvd computed = true ↔ rcvd = computed := beq_iff_eq

theorem crcMatches_eq_false_iff (rcvd computed : Word) : crcMatches rcvd computed = false ↔ rcvd ≠ computed :=
  beq_eq_false_iff_ne

theorem countMeets_iff (n : Nat) (expected : Word) : countMeets n expected = true ↔ expected.toNat ≤ n :=
  decide_eq_true_iff

/-- DEC.PARSE leaves the relations between the result fields, whatever they were before: way by way of R150, the frame
too short to inspect, the error frame, the payload cut off, the CRC refused in strict mode, the frame accepted. -/
theorem resultInv_parse (e : Word) (s : State) : ResultInv (parse e s) := by
  obtain ⟨-, h⟩ | ⟨-, herr, h⟩ | ⟨-, herr, -, h⟩ | ⟨-, herr, -, ⟨-, hne⟩, h⟩ | ⟨-, herr, -, -, h⟩ :=
    parse_cases e s <;> rw [h]
  · constructor <;> simp [statusOf, errorBit]
  · constructor <;> simp [statusOf, parseError, parseStart, herr, crcMatches_iff]
  · constructor <;> simp [statusOf, parseStart, herr]
  · constructor <;> simp [statusOf, parseStart, herr, crcMatches_eq_false_iff, hne]
  · have hn : (s.rxbuf.read 2).toNat / 2 < 128 := by omega
    constructor <;> simp [parseStart, herr, crcMatches_iff, countMeets_iff, Nat.mod_eq_of_lt hn]

theorem ResultInv.executed (h : ResultInv s) (i : Instr) : ResultInv (executed i s) := by
  cases hi : writesResults i with
  | false => exact h.of_only (executed_only (p := .results) hi s)
  | true =>
    obtain rfl | rfl | ⟨e, rfl⟩ | ⟨⟨x, bytes⟩, hr⟩ := writesResults_cases hi
    · exact resultInv_reset.of_only rfl
    · exact resultInv_rxReset s
    · exact resultInv_parse e s
    · rw [executed_of_responseOf hr]
      exact resultInv_parse x _

/-! ### The invariant of the block -/

theorem Inv.executed (h : Inv s) (i : Instr) : Inv (executed i s) :=
  ⟨h.tx.executed i, h.rx.executed i, h.result.executed i⟩

theorem Inv.receive (h : Inv s) (x : Word) (bytes : List Byte) : Inv (receive x bytes s) :=
  ⟨h.tx.of_only (ChangesOnly.receive x bytes s .tx (by decide)), rxInv_receive x bytes s, resultInv_parse x _⟩

theorem Inv.refuse (h : Inv s) (r : RefuseReason) : Inv (refuse r s) :=
  ⟨h.tx.of_only rfl, h.rx.of_only rfl, h.result.of_only rfl⟩

theorem Inv.withInbox (h : Inv s) (queue : List Input) : Inv { s with inbox := queue } :=
  ⟨h.tx.of_only rfl, h.rx.of_only rfl, h.result.of_only rfl⟩

theorem Inv.serve (h : Inv s) (x : Input) : ∃ t, serve x s = .next t ∧ Inv t := by
  unfold Machine.serve
  split
  · exact ⟨_, exec_eq_next _ s, h.executed _⟩
  · exact ⟨_, rfl, h.refuse .illegalCommand⟩
  · exact ⟨_, rfl, h.receive _ _⟩

theorem Inv.step (h : Inv s) : ∃ t, step s = .next t ∧ Inv t := by
  cases hinbox : s.inbox with
  | nil => exact ⟨s, step_of_inbox_nil hinbox, h⟩
  | cons x rest =>
    rw [step_of_inbox_cons hinbox]
    exact (h.withInbox rest).serve x

end

/-- Settles O13, part by part. -/
theorem resetSatisfiesInvariant : Obligations.ResetSatisfiesInvariant :=
  ⟨txInv_reset, rxInv_reset, resultInv_reset⟩

/-- Settles O14: each part's invariant is kept where the part is not written, and re-established by each writer. -/
theorem stepKeepsInvariant : Obligations.StepKeepsInvariant := by
  intro s t hs ht
  obtain ⟨u, hu, hinv⟩ := hs.step
  obtain rfl : t = u := Host.Outcome.next.inj (ht.symm.trans hu)
  exact hinv

end Sys2Proof.Machine

/-! # Encodings

The fields of a 64-bit word, the command words of R97 to R99 against the opcode map, the frames of R81 to R84, and the
two round trips. -/

namespace Sys2Proof.Machine

open BitVec (extractLsb'_append_eq_of_le extractLsb'_append_eq_of_add_le extractLsb'_eq_self
  extractLsb'_append_extractLsb'_eq_extractLsb')

/-! ### The fields of a word put together from its parts -/

theorem opcodeOf_cw8Word (op b : Byte) : opcodeOf (op ++ b ++ 0#48) = op := by
  simp (disch := decide) only [opcodeOf, extractLsb'_append_eq_of_le, Nat.reduceSub, extractLsb'_eq_self]

theorem opcodeOf_cw16Word (op : Byte) (e : Word) : opcodeOf (op ++ e ++ 0#40) = op := by
  simp (disch := decide) only [opcodeOf, extractLsb'_append_eq_of_le, Nat.reduceSub, extractLsb'_eq_self]

theorem opcodeOf_cw816Word (op r : Byte) (v : Word) : opcodeOf (op ++ r ++ v ++ 0#32) = op := by
  simp (disch := decide) only [opcodeOf, extractLsb'_append_eq_of_le, Nat.reduceSub, extractLsb'_eq_self]

theorem opcodeOf_cwBWord (op a f : Byte) (st n : Word) : opcodeOf (op ++ a ++ f ++ st ++ n ++ 0#8) = op := by
  simp (disch := decide) only [opcodeOf, extractLsb'_append_eq_of_le, Nat.reduceSub, extractLsb'_eq_self]

theorem cw8_cw8Word (op b : Byte) (i : Byte → Instr) : cw8 (op ++ b ++ 0#48) i = some (i b) := by
  simp (disch := decide) only [cw8, extractLsb'_append_eq_of_le, extractLsb'_append_eq_of_add_le, Nat.reduceSub,
    extractLsb'_eq_self]
  rfl

theorem cw16_cw16Word (op : Byte) (e : Word) (i : Word → Instr) : cw16 (op ++ e ++ 0#40) i = some (i e) := by
  simp (disch := decide) only [cw16, extractLsb'_append_eq_of_le, extractLsb'_append_eq_of_add_le, Nat.reduceSub,
    extractLsb'_eq_self]
  rfl

theorem cw816_cw816Word (op r : Byte) (v : Word) (i : Byte → Word → Instr) :
    cw816 (op ++ r ++ v ++ 0#32) i = some (i r v) := by
  simp (disch := decide) only [cw816, extractLsb'_append_eq_of_le, extractLsb'_append_eq_of_add_le, Nat.reduceSub,
    extractLsb'_eq_self]
  rfl

theorem cwB_cwBWord (op a f : Byte) (st n : Word) (i : Byte → Byte → Word → Word → Instr) :
    cwB (op ++ a ++ f ++ st ++ n ++ 0#8) i = some (i a f st n) := by
  simp (disch := decide) only [cwB, extractLsb'_append_eq_of_le, extractLsb'_append_eq_of_add_le, Nat.reduceSub,
    extractLsb'_eq_self]
  rfl

/-! ### A word is the concatenation of its fields -/

theorem cw0Word_fields (w : Word64) : opcodeOf w ++ w.extractLsb' 0 56 = w := by
  rw [opcodeOf, extractLsb'_append_extractLsb'_eq_extractLsb' (show 56 = 0 + 56 from rfl)]
  exact extractLsb'_eq_self

theorem cw8Word_fields (w : Word64) : opcodeOf w ++ w.extractLsb' 48 8 ++ w.extractLsb' 0 48 = w := by
  rw [opcodeOf, extractLsb'_append_extractLsb'_eq_extractLsb' (show 56 = 48 + 8 from rfl),
    extractLsb'_append_extractLsb'_eq_extractLsb' (show 48 = 0 + 48 from rfl)]
  exact extractLsb'_eq_self

theorem cw16Word_fields (w : Word64) : opcodeOf w ++ w.extractLsb' 40 16 ++ w.extractLsb' 0 40 = w := by
  rw [opcodeOf, extractLsb'_append_extractLsb'_eq_extractLsb' (show 56 = 40 + 16 from rfl),
    extractLsb'_append_extractLsb'_eq_extractLsb' (show 40 = 0 + 40 from rfl)]
  exact extractLsb'_eq_self

theorem cw816Word_fields (w : Word64) :
    opcodeOf w ++ w.extractLsb' 48 8 ++ w.extractLsb' 32 16 ++ w.extractLsb' 0 32 = w := by
  rw [opcodeOf, extractLsb'_append_extractLsb'_eq_extractLsb' (show 56 = 48 + 8 from rfl),
    extractLsb'_append_extractLsb'_eq_extractLsb' (show 48 = 32 + 16 from rfl),
    extractLsb'_append_extractLsb'_eq_extractLsb' (show 32 = 0 + 32 from rfl)]
  exact extractLsb'_eq_self

theorem cwBWord_fields (w : Word64) :
    opcodeOf w ++ w.extractLsb' 48 8 ++ w.extractLsb' 40 8 ++ w.extractLsb' 24 16 ++ w.extractLsb' 8 16 ++
      w.extractLsb' 0 8 = w := by
  rw [opcodeOf, extractLsb'_append_extractLsb'_eq_extractLsb' (show 56 = 48 + 8 from rfl),
    extractLsb'_append_extractLsb'_eq_extractLsb' (show 48 = 40 + 8 from rfl),
    extractLsb'_append_extractLsb'_eq_extractLsb' (show 40 = 24 + 16 from rfl),
    extractLsb'_append_extractLsb'_eq_extractLsb' (show 24 = 8 + 16 from rfl),
    extractLsb'_append_extractLsb'_eq_extractLsb' (show 8 = 0 + 8 from rfl)]
  exact extractLsb'_eq_self

/-! ### Command words: decoding against encoding -/

/-- What is decoded, if anything is, is encoded as the word `w`. -/
def EncodedAs (w : Word64) (o : Option Instr) : Prop := ∀ i, o = some i → encode i = .command w

theorem encodedAs_none (w : Word64) : EncodedAs w none := fun _ h => nomatch h

theorem encodedAs_ite {w : Word64} {c : Prop} [Decidable c] {o o' : Option Instr} (h : c → EncodedAs w o)
    (h' : EncodedAs w o') : EncodedAs w (if c then o else o') :=
  iteInduction h fun _ => h'

theorem encodedAs_some {w : Word64} {i : Instr} (h : encode i = .command w) : EncodedAs w (some i) :=
  fun _ hi => Option.some.inj hi ▸ h

theorem encodedAs_cw0 {w : Word64} {op : Byte} {i : Instr} (henc : encode i = encCw0 op) (hop : opcodeOf w = op) :
    EncodedAs w (cw0 w i) := by
  refine encodedAs_ite (fun hres => encodedAs_some ?_) (encodedAs_none w)
  have hw := cw0Word_fields w
  rw [hop, hres] at hw
  exact henc.trans (congrArg Input.command hw)

theorem encodedAs_cw8 {w : Word64} {op : Byte} {i : Byte → Instr} (henc : ∀ b, encode (i b) = encCw8 op b)
    (hop : opcodeOf w = op) : EncodedAs w (cw8 w i) := by
  refine encodedAs_ite (fun hres => encodedAs_some ?_) (encodedAs_none w)
  have hw := cw8Word_fields w
  rw [hop, hres] at hw
  exact (henc _).trans (congrArg Input.command hw)

theorem encodedAs_cw16 {w : Word64} {op : Byte} {i : Word → Instr} (henc : ∀ e, encode (i e) = encCw16 op e)
    (hop : opcodeOf w = op) : EncodedAs w (cw16 w i) := by
  refine encodedAs_ite (fun hres => encodedAs_some ?_) (encodedAs_none w)
  have hw := cw16Word_fields w
  rw [hop, hres] at hw
  exact (henc _).trans (congrArg Input.command hw)

theorem encodedAs_cw816 {w : Word64} {op : Byte} {i : Byte → Word → Instr}
    (henc : ∀ r v, encode (i r v) = .command (op ++ r ++ v ++ 0#32)) (hop : opcodeOf w = op) :
    EncodedAs w (cw816 w i) := by
  refine encodedAs_ite (fun hres => encodedAs_some ?_) (encodedAs_none w)
  have hw := cw816Word_fields w
  rw [hop, hres] at hw
  exact (henc _ _).trans (congrArg Input.command hw)

theorem encodedAs_cwB {w : Word64} {op : Byte} {i : Byte → Byte → Word → Word → Instr}
    (henc : ∀ a f st n, encode (i a f st n) = .command (op ++ a ++ f ++ st ++ n ++ 0#8)) (hop : opcodeOf w = op) :
    EncodedAs w (cwB w i) := by
  refine encodedAs_ite (fun hres => encodedAs_some ?_) (encodedAs_none w)
  have hw := cwBWord_fields w
  rw [hop, hres] at hw
  exact (henc _ _ _ _).trans (congrArg Input.command hw)

/-- Row by row of the opcode map, in its order. -/
theorem encodedAs_decodeCommand (w : Word64) : EncodedAs w (decodeCommand w) := by
  unfold decodeCommand
  extract_lets op
  refine encodedAs_ite (encodedAs_cw0 rfl) ?_
  refine encodedAs_ite (encodedAs_cw8 fun _ => rfl) ?_
  refine encodedAs_ite (encodedAs_cw816 fun _ _ => rfl) ?_
  refine encodedAs_ite (encodedAs_cw0 rfl) ?_
  refine encodedAs_ite (encodedAs_cw8 fun _ => rfl) ?_
  refine encodedAs_ite (encodedAs_cw0 rfl) ?_
  refine encodedAs_ite (encodedAs_cw8 fun _ => rfl) ?_
  refine encodedAs_ite (encodedAs_cw0 rfl) ?_
  refine encodedAs_ite (encodedAs_cwB fun _ _ _ _ => rfl) ?_
  refine encodedAs_ite (encodedAs_cw0 rfl) ?_
  refine encodedAs_ite (encodedAs_cw0 rfl) ?_
  refine encodedAs_ite (encodedAs_cw8 fun _ => rfl) ?_
  refine encodedAs_ite (encodedAs_cw16 fun _ => rfl) ?_
  refine encodedAs_ite (encodedAs_cw8 fun _ => rfl) ?_
  exact encodedAs_ite (encodedAs_cw16 fun _ => rfl) (encodedAs_none w)

theorem decodeCommand_of_encode {w : Word64} {i : Instr} (h : encode i = .command w) : decodeCommand w = some i := by
  cases i <;> cases h
  case sysReset | crcInit | crcShift | crcRead | txPop | rxClear => rfl
  case sysRd | crcXorb | crcByte | rxPush | decRdreg =>
    rw [decodeCommand, opcodeOf_cw8Word]
    exact cw8_cw8Word _ _ _
  case decParse | decRdraw =>
    rw [decodeCommand, opcodeOf_cw16Word]
    exact cw16_cw16Word _ _ _
  case sysWr r v =>
    rw [decodeCommand, opcodeOf_cw816Word]
    exact cw816_cw816Word _ r v _
  case encBuild a f st n =>
    rw [decodeCommand, opcodeOf_cwBWord]
    exact cwB_cwBWord _ a f st n _

/-- A command word has one reading, and the reading is the inverse of the encoding. -/
theorem decodeCommand_eq_some_iff (w : Word64) (i : Instr) : decodeCommand w = some i ↔ encode i = .command w :=
  ⟨encodedAs_decodeCommand w i, decodeCommand_of_encode⟩

theorem decode_command_eq_ok_iff (w : Word64) (i : Instr) : decode (.command w) = .ok i ↔ decodeCommand w = some i := by
  cases h : decodeCommand w <;> simp [decode, h]

/-! ### The opcode map (R98) -/

/-- A field that the mask keeps is the pattern's. -/
theorem field_of_matches {row : CommandRow} {w : Word64} {k n : Nat} (h : row.matches w)
    (hmask : row.mask.extractLsb' k n = BitVec.allOnes n) : w.extractLsb' k n = row.pattern.extractLsb' k n := by
  rw [← h, BitVec.extractLsb'_and, hmask, BitVec.and_allOnes]

theorem opcodeOf_of_matches {row : CommandRow} {w : Word64} (hrow : row ∈ commandTable) (h : row.matches w) :
    opcodeOf w = opcodeOf row.pattern := by
  have hmask : ∀ row ∈ commandTable, row.mask.extractLsb' 56 8 = BitVec.allOnes 8 := by decide
  exact field_of_matches h (hmask row hrow)

theorem row_eq_of_opcode : ∀ r1 ∈ commandTable, ∀ r2 ∈ commandTable,
    opcodeOf r1.pattern = opcodeOf r2.pattern → r1 = r2 := by decide

/-- Settles O4: every mask keeps the opcode, and no two rows have the same. -/
theorem opcodeMapRowsNeverOverlap : Obligations.OpcodeMapRowsNeverOverlap := by
  intro w r1 r2 hr1 hr2 h1 h2
  exact row_eq_of_opcode r1 hr1 r2 hr2 ((opcodeOf_of_matches hr1 h1).symm.trans (opcodeOf_of_matches hr2 h2))

theorem cw0_of_reserved {w : Word64} (i : Instr) (h : w.extractLsb' 0 56 = 0) : cw0 w i = some i := if_pos h

theorem cw8_of_reserved {w : Word64} (i : Byte → Instr) (h : w.extractLsb' 0 48 = 0) :
    cw8 w i = some (i (w.extractLsb' 48 8)) := if_pos h

theorem cw16_of_reserved {w : Word64} (i : Word → Instr) (h : w.extractLsb' 0 40 = 0) :
    cw16 w i = some (i (w.extractLsb' 40 16)) := if_pos h

theorem cw816_of_reserved {w : Word64} (i : Byte → Word → Instr) (h : w.extractLsb' 0 32 = 0) :
    cw816 w i = some (i (w.extractLsb' 48 8) (w.extractLsb' 32 16)) := if_pos h

theorem cwB_of_reserved {w : Word64} (i : Byte → Byte → Word → Word → Instr) (h : w.extractLsb' 0 8 = 0) :
    cwB w i = some (i (w.extractLsb' 48 8) (w.extractLsb' 40 8) (w.extractLsb' 24 16) (w.extractLsb' 8 16)) := if_pos h

/-- A match fixes the opcode, which selects the row's format, and the bits the format reserves. -/
theorem decodeCommand_of_matches (w : Word64) : ∀ row ∈ commandTable, row.matches w →
    ∃ i, decodeCommand w = some i ∧ commandMnemonic i = some row.mnemonic := by
  intro row hrow h
  have hop : opcodeOf w = opcodeOf row.pattern := opcodeOf_of_matches hrow h
  have reserved {n : Nat} (hmask : row.mask.extractLsb' 0 n = BitVec.allOnes n) := field_of_matches h hmask
  rw [decodeCommand, hop]
  simp only [commandTable, List.mem_cons, List.not_mem_nil, or_false] at hrow
  obtain rfl | rfl | rfl | rfl | rfl | rfl | rfl | rfl | rfl | rfl | rfl | rfl | rfl | rfl | rfl := hrow
  · exact ⟨_, cw0_of_reserved .sysReset (reserved rfl), rfl⟩
  · exact ⟨_, cw8_of_reserved .sysRd (reserved rfl), rfl⟩
  · exact ⟨_, cw816_of_reserved .sysWr (reserved rfl), rfl⟩
  · exact ⟨_, cw0_of_reserved .crcInit (reserved rfl), rfl⟩
  · exact ⟨_, cw8_of_reserved .crcXorb (reserved rfl), rfl⟩
  · exact ⟨_, cw0_of_reserved .crcShift (reserved rfl), rfl⟩
  · exact ⟨_, cw8_of_reserved .crcByte (reserved rfl), rfl⟩
  · exact ⟨_, cw0_of_reserved .crcRead (reserved rfl), rfl⟩
  · exact ⟨_, cwB_of_reserved .encBuild (reserved rfl), rfl⟩
  · exact ⟨_, cw0_of_reserved .txPop (reserved rfl), rfl⟩
  · exact ⟨_, cw0_of_reserved .rxClear (reserved rfl), rfl⟩
  · exact ⟨_, cw8_of_reserved .rxPush (reserved rfl), rfl⟩
  · exact ⟨_, cw16_of_reserved .decParse (reserved rfl), rfl⟩
  · exact ⟨_, cw8_of_reserved .decRdreg (reserved rfl), rfl⟩
  · exact ⟨_, cw16_of_reserved .decRdraw (reserved rfl), rfl⟩

/-- Every instruction is encoded as the row of R98's table, or the frame, that it stands for. -/
theorem encoded_statement (i : Instr) : Laws.Encoded.Statement i := by
  cases i with
  | sysReset => exact Laws.Encoded.sysReset
  | sysRd r => exact Laws.Encoded.sysRd r
  | sysWr r v => exact Laws.Encoded.sysWr r v
  | crcInit => exact Laws.Encoded.crcInit
  | crcXorb b => exact Laws.Encoded.crcXorb b
  | crcShift => exact Laws.Encoded.crcShift
  | crcByte b => exact Laws.Encoded.crcByte b
  | crcRead => exact Laws.Encoded.crcRead
  | encBuild a f st n => exact Laws.Encoded.encBuild a f st n
  | txPop => exact Laws.Encoded.txPop
  | rxClear => exact Laws.Encoded.rxClear
  | rxPush b => exact Laws.Encoded.rxPush b
  | decParse e => exact Laws.Encoded.decParse e
  | decRdreg k => exact Laws.Encoded.decRdreg k
  | decRdraw j => exact Laws.Encoded.decRdraw j
  | req | reqF03 | rspN | rspNF03 | rspE | rspEF83 | exc01 | exc02 | exc03 | exc04 | exc05 | exc06 | exc08 | exc0A
  | exc0B | excUnknown => exact fun _ h => nomatch h

/-- The converse: what is decoded was read from a word that matches its own row. -/
theorem matches_of_decodeCommand {w : Word64} {i : Instr} (h : decodeCommand w = some i) :
    ∃ row ∈ commandTable, commandMnemonic i = some row.mnemonic ∧ row.matches w := by
  have hw : encode i = .command w := (decodeCommand_eq_some_iff w i).mp h
  have hi := encoded_statement i
  unfold Laws.Encoded.Statement at hi
  split at hi
  next m hm =>
    obtain ⟨w', row, hw', hrow, rfl, hmatch⟩ := hi
    obtain rfl : w' = w := Input.command.inj (hw'.symm.trans hw)
    exact ⟨row, hrow, hm, hmatch⟩
  next => exact absurd hw (hi w)

theorem row_eq_of_mnemonic : ∀ r1 ∈ commandTable, ∀ r2 ∈ commandTable, r1.mnemonic = r2.mnemonic → r1 = r2 := by
  decide

/-- Settles O3: a match is decoded to the row's command; what is decoded to it matches a row of that mnemonic, and there
is one. -/
theorem commandDecodeFollowsOpcodeMap : Obligations.CommandDecodeFollowsOpcodeMap := by
  intro w row hrow
  simp only [decode_command_eq_ok_iff]
  refine ⟨decodeCommand_of_matches w row hrow, ?_⟩
  rintro ⟨i, hi, hmnemonic⟩
  obtain ⟨row', hrow', hmnemonic', hmatch⟩ := matches_of_decodeCommand hi
  obtain rfl : row' = row := row_eq_of_mnemonic row' hrow' row hrow (Option.some.inj (hmnemonic'.symm.trans hmnemonic))
  exact hmatch

/-- Settles O8: what is decoded matches a row, so the word is decoded to nothing. -/
theorem illegalWordIsRefused : Obligations.IllegalWordIsRefused := by
  intro s w rest hinbox hnone
  rw [step_of_inbox_cons hinbox]
  obtain ⟨i, hi, -⟩ | ⟨-, hrefused⟩ := serve_command_cases w { s with inbox := rest }
  · obtain ⟨row, hrow, -, hmatch⟩ := matches_of_decodeCommand hi
    exact absurd hmatch (hnone row hrow)
  · exact hrefused

/-! ### Request frames (R81) -/

theorem encRequest_fields (v : Word64) : encRequest (v.extractLsb' 56 8) (v.extractLsb' 48 8) (v.extractLsb' 32 16)
    (v.extractLsb' 16 16) (v.extractLsb' 8 8) (v.extractLsb' 0 8) = .request v := by
  rw [encRequest, extractLsb'_append_extractLsb'_eq_extractLsb' (show 56 = 48 + 8 from rfl),
    extractLsb'_append_extractLsb'_eq_extractLsb' (show 48 = 32 + 16 from rfl),
    extractLsb'_append_extractLsb'_eq_extractLsb' (show 32 = 16 + 16 from rfl),
    extractLsb'_append_extractLsb'_eq_extractLsb' (show 16 = 8 + 8 from rfl),
    extractLsb'_append_extractLsb'_eq_extractLsb' (show 8 = 0 + 8 from rfl)]
  exact congrArg Input.request extractLsb'_eq_self

theorem decodeRequest_fields (a f : Byte) (st n : Word) (l h : Byte) :
    decodeRequest (a ++ f ++ st ++ n ++ l ++ h) = if f = 0x03 then .reqF03 a st n l h else .req a f st n l h := by
  simp (disch := decide) only [decodeRequest, extractLsb'_append_eq_of_le, extractLsb'_append_eq_of_add_le,
    Nat.reduceSub, extractLsb'_eq_self]

theorem encode_decodeRequest (v : Word64) : encode (decodeRequest v) = .request v := by
  rw [← encRequest_fields v]
  unfold decodeRequest
  extract_lets a f st n l h
  split
  next hf => exact congrArg (encRequest a · st n l h) hf.symm
  next => rfl

/-! ### Response frames (R82 to R84) -/

theorem mem_listedCodes_iff (e : Byte) : e ∈ listedCodes ↔ e = 0x01 ∨ e = 0x02 ∨ e = 0x03 ∨ e = 0x04 ∨ e = 0x05 ∨
    e = 0x06 ∨ e = 0x08 ∨ e = 0x0A ∨ e = 0x0B := by
  simp only [listedCodes, List.mem_cons, List.not_mem_nil, or_false]

/-- The row of a code that R92 does not list. -/
theorem errorRow_of_unlisted (x : Word) (a f : Byte) {e : Byte} (l h : Byte) (he : e ∉ listedCodes) :
    errorRow x a f e l h = if errorCrcOk a f e l h then .excUnknown x a f e l h
      else if f = 0x83 then .rspEF83 x a e l h else .rspE x a f e l h := by
  simp only [mem_listedCodes_iff, not_or] at he
  obtain ⟨h1, h2, h3, h4, h5, h6, h8, hA, hB⟩ := he
  simp only [errorRow, h1, h2, h3, h4, h5, h6, h8, hA, hB, if_false]

theorem encode_errorRow (x : Word) (a f e l h : Byte) : encode (errorRow x a f e l h) = encError x a f e l h := by
  by_cases he : e ∈ listedCodes
  · obtain rfl | rfl | rfl | rfl | rfl | rfl | rfl | rfl | rfl := (mem_listedCodes_iff e).mp he <;> rfl
  · rw [errorRow_of_unlisted x a f l h he]
    split_ifs with hcrc hf
    · rfl
    · rw [hf]
      rfl
    · rfl

theorem encode_normalRow (x : Word) (a f bc : Byte) (payload : List Byte) (l h : Byte) :
    encode (normalRow x a f bc payload l h) = encNormal x a f bc payload l h := by
  unfold normalRow
  split_ifs <;> simp only [*, encode]

theorem decodeFrame_errorFrame (x : Word) {a f : Byte} (e l h : Byte) (hf : errorBit f = true) :
    decodeFrame x (errorFrame a f e l h) = some (errorRow x a f e l h) := if_pos hf

theorem decodeFrame_normalFrame (x : Word) {a f bc : Byte} {payload : List Byte} (l h : Byte) (hf : errorBit f = false)
    (hlen : payload.length = bc.toNat) :
    decodeFrame x (normalFrame a f bc payload l h) = some (normalRow x a f bc payload l h) := by
  simp [decodeFrame, normalFrame, hf, ← hlen]

/-- Only an error frame or a normal frame decodes, and its reading is encoded as itself. -/
theorem encode_of_decodeFrame {x : Word} {bytes : List Byte} {i : Instr} (hi : decodeFrame x bytes = some i) :
    encode i = .response x bytes := by
  unfold decodeFrame at hi
  split at hi
  next a f c rest =>
    split at hi
    next =>
      split at hi
      next l h =>
        cases hi
        exact encode_errorRow x a f c l h
      next => exact nomatch hi
    next =>
      split at hi
      next l h hdrop =>
        cases hi
        rw [encode_normalRow, encNormal, ← hdrop, List.take_append_drop]
      next => exact nomatch hi
  next => exact nomatch hi

theorem decode_encNormal (x : Word) {a f bc : Byte} {payload : List Byte} (l h : Byte) (hf : errorBit f = false)
    (hlen : payload.length = bc.toNat) :
    decode (encNormal x a f bc payload l h) = .ok (normalRow x a f bc payload l h) := by
  have hframe : decodeFrame x (a :: f :: bc :: (payload ++ [l, h])) = _ := decodeFrame_normalFrame x l h hf hlen
  simp only [decode, encNormal, hframe]

theorem decode_encError (x : Word) {a f : Byte} (e l h : Byte) (hf : errorBit f = true) :
    decode (encError x a f e l h) = .ok (errorRow x a f e l h) := by
  have hframe : decodeFrame x [a, f, e, l, h] = _ := decodeFrame_errorFrame x e l h hf
  simp only [decode, encError, hframe]

/-! ### The two round trips -/

/-- Settles O2: command words, request frames and response frames, each by its own inverse. -/
theorem encodeDecodeRoundTrip : Obligations.EncodeDecodeRoundTrip := by
  intro x i hi
  cases x with
  | command w => exact (decodeCommand_eq_some_iff w i).mp ((decode_command_eq_ok_iff w i).mp hi)
  | request v => exact Except.ok.inj hi ▸ encode_decodeRequest v
  | response x bytes =>
    cases hframe : decodeFrame x bytes with
    | some j =>
      obtain rfl : j = i := by simpa [decode, hframe] using hi
      exact encode_of_decodeFrame hframe
    | none => simp [decode, hframe] at hi

/-- Settles O1: a command needs no condition; a frame of a well-formed row is read back field by field, and its fields
name that row. -/
theorem decodeEncodeRoundTrip : Obligations.DecodeEncodeRoundTrip := by
  intro i hwf
  cases i with
  | sysReset | sysRd | sysWr | crcInit | crcXorb | crcShift | crcByte | crcRead | encBuild | txPop | rxClear | rxPush
  | decParse | decRdreg | decRdraw =>
    exact (decode_command_eq_ok_iff _ _).mpr (decodeCommand_of_encode rfl)
  | req a f st n l h =>
    obtain ⟨hf, -⟩ := of_decide_eq_true hwf
    exact congrArg Except.ok ((decodeRequest_fields a f st n l h).trans (if_neg hf))
  | reqF03 a st n l h => exact congrArg Except.ok (decodeRequest_fields a 0x03 st n l h)
  | rspN x a f bc payload l h =>
    obtain ⟨herr, hf, hlen⟩ := of_decide_eq_true hwf
    exact (decode_encNormal x l h herr hlen).trans (congrArg Except.ok (if_neg hf))
  | rspNF03 x a bc payload l h => exact decode_encNormal x l h rfl (of_decide_eq_true hwf)
  | exc01 x a f l h | exc02 x a f l h | exc03 x a f l h | exc04 x a f l h | exc05 x a f l h | exc06 x a f l h
  | exc08 x a f l h | exc0A x a f l h | exc0B x a f l h => exact decode_encError x _ l h hwf
  | excUnknown x a f e l h =>
    obtain ⟨herr, he, hcrc⟩ := of_decide_eq_true hwf
    refine (decode_encError x e l h herr).trans (congrArg Except.ok ?_)
    rw [errorRow_of_unlisted x a f l h he, if_pos hcrc]
  | rspEF83 x a e l h =>
    obtain ⟨he, hcrc⟩ := of_decide_eq_true hwf
    refine (decode_encError x e l h rfl).trans (congrArg Except.ok ?_)
    rw [errorRow_of_unlisted x a 0x83 l h he, if_neg hcrc, if_pos rfl]
  | rspE x a f e l h =>
    obtain ⟨herr, hf, he, hcrc⟩ := of_decide_eq_true hwf
    refine (decode_encError x e l h herr).trans (congrArg Except.ok ?_)
    rw [errorRow_of_unlisted x a f l h he, if_neg hcrc, if_neg hf]

/-- Settles O5, by evaluation. -/
theorem wordsOfTheSpecDecode : Obligations.WordsOfTheSpecDecode :=
  ⟨rfl, rfl, rfl, rfl, rfl, rfl, rfl, rfl, rfl⟩

/-! ### The bytes of a word -/

theorem bytes_of_requestWord (a f : Byte) (st n : Word) (l h : Byte) :
    (List.range 8).map (fun k => (a ++ f ++ st ++ n ++ l ++ h).extractLsb' (56 - 8 * k) 8) =
      requestHeader a f st n ++ [l, h] := by
  rw [show List.range 8 = [0, 1, 2, 3, 4, 5, 6, 7] from rfl]
  simp (disch := decide) only [List.map_cons, List.map_nil, extractLsb'_append_eq_of_le,
    extractLsb'_append_eq_of_add_le, Nat.reduceMul, Nat.reduceSub, extractLsb'_eq_self]
  rfl

theorem bytes_of_buildWord (op a f : Byte) (st n : Word) :
    (List.range 6).map (fun k => (op ++ a ++ f ++ st ++ n ++ 0#8).extractLsb' (48 - 8 * k) 8) =
      requestHeader a f st n := by
  rw [show List.range 6 = [0, 1, 2, 3, 4, 5] from rfl]
  simp (disch := decide) only [List.map_cons, List.map_nil, extractLsb'_append_eq_of_le,
    extractLsb'_append_eq_of_add_le, Nat.reduceMul, Nat.reduceSub, extractLsb'_eq_self]
  rfl

theorem length_buildRequest (a f : Byte) (st n : Word) : (buildRequest a f st n).length = 8 := rfl

/-- The frame ENC.BUILD stores starts with the request header. -/
theorem read_txBuild_header (a f : Byte) (st n : Word) (s : State) {k : Nat} (hk : k < 6) :
    (txBuild a f st n s).txbuf.read k = (requestHeader a f st n).getD k 0 := by
  have hframe : 0 ≤ k ∧ k < 0 + (buildRequest a f st n).length := by
    rw [length_buildRequest]
    omega
  rw [txBuild_txbuf, Memory.read_writeBytes, if_pos hframe, Nat.sub_zero, buildRequest, List.getD_append _ _ _ _ hk]

/-- Settles O6: both are the request header. -/
theorem buildWordHoldsTheRequestHeader : Obligations.BuildWordHoldsTheRequestHeader := by
  intro a f st n s
  refine ⟨_, _, rfl, rfl, fun k hk => ?_⟩
  rw [read_txBuild_header a f st n s hk, ← bytes_of_buildWord 0x20 a f st n, List.getD_eq_getElem?_getD]
  simp [hk]

/-! ### The message table (R93) -/

theorem msgIdOf_ne_zero (c : Byte) : msgIdOf c ≠ 0 := by
  unfold msgIdOf
  split_ifs <;> decide

theorem message_of_unlisted {c : Byte} (hc : c ∉ listedCodes) : msgIdOf c = 10 ∧ msgString c = "unknown error" := by
  simp only [mem_listedCodes_iff, not_or] at hc
  obtain ⟨h1, h2, h3, h4, h5, h6, h8, hA, hB⟩ := hc
  simp only [msgIdOf, msgString, h1, h2, h3, h4, h5, h6, h8, hA, hB, if_false, and_self]

/-- Settles O44: the nine listed codes are evaluated, every other code falls through the table to its last entry. -/
theorem messageTable : Obligations.MessageTable :=
  ⟨by decide, fun _ => message_of_unlisted, msgIdOf_ne_zero⟩

end Sys2Proof.Machine

/-! # Frames on the wire

What a request row sends and what a response row leaves (R95; assumption log 3): each row is the command sequence of its
frame, run from any state. -/

namespace Sys2Proof.Machine

/-! ### Sending a request -/

/-- The reply that hands out one byte of the transmit buffer. -/
def byteReply (b : Byte) : Reply := .value (zext16 b)

/-- `n` pops of a frame that still has `n` bytes: they are handed out in order, and the frame stays pending while bytes
are left. -/
theorem txTakeN_eq (n : Nat) {s : State} (hvalid : s.txValid = decide (s.txPtr.toNat < 8))
    (hn : s.txPtr.toNat + n ≤ 8) : txTakeN n s = { s with
      txPtr := s.txPtr + BitVec.ofNat 4 n, txValid := decide (s.txPtr.toNat + n < 8),
      replies := ((s.txbuf.readBytes s.txPtr.toNat n).map byteReply).reverse ++ s.replies } := by
  induction n generalizing s with
  | zero => simp [txTakeN, ← hvalid, Memory.readBytes]
  | succ n ih =>
    have hroom : s.txPtr.toNat < 8 := by omega
    have hptr : (s.txPtr + 1).toNat = s.txPtr.toNat + 1 := by bv_omega
    have hlast : decide (s.txPtr + 1 ≠ 8) = decide (s.txPtr.toNat + 1 < 8) := by
      rw [decide_eq_decide]
      bv_omega
    obtain ⟨hidle, -⟩ | ⟨-, htake⟩ := txTake_cases s
    · rw [hidle, decide_eq_true hroom] at hvalid
      exact absurd hvalid Bool.false_ne_true
    · have hptr' : (txTake s).txPtr.toNat = s.txPtr.toNat + 1 := (congrArg (·.txPtr.toNat) htake).trans hptr
      have hvalid' : (txTake s).txValid = decide (s.txPtr.toNat + 1 < 8) := (congrArg State.txValid htake).trans hlast
      rw [txTakeN, ih (hptr' ▸ hvalid') (by omega), htake]
      have hsum : s.txPtr + 1 + BitVec.ofNat 4 n = s.txPtr + BitVec.ofNat 4 (n + 1) := by
        rw [BitVec.add_assoc, BitVec.add_comm 1, BitVec.ofNat_add]
        rfl
      have hleft : s.txPtr.toNat + 1 + n = s.txPtr.toNat + (n + 1) := by omega
      simp only [State.log, hptr, hsum, hleft, Memory.readBytes, List.map_cons, List.reverse_cons, List.append_assoc]
      rfl

/-- The whole effect of sending a request. -/
theorem transmit_eq (a f : Byte) (st n : Word) (s : State) : transmit a f st n s = { s with
    txbuf := s.txbuf.writeBytes 0 (buildRequest a f st n), txPtr := 8, txValid := false,
    replies := ((buildRequest a f st n).map byteReply).reverse ++ .done :: s.replies } := by
  have hframe : (txBuild a f st n s).txbuf.readBytes (txBuild a f st n s).txPtr.toNat Config.reqLen =
      buildRequest a f st n :=
    Memory.readBytes_writeBytes s.txbuf 0 (buildRequest a f st n)
  rw [transmit, txTakeN_eq Config.reqLen (s := txBuild a f st n s) rfl le_rfl, hframe]
  rfl

/-- Settles O52: both programs are `transmit`, whose effect is known in full. -/
theorem requestRowsSendTheirFrame : Obligations.RequestRowsSendTheirFrame := by
  intro i a f st n s hi
  have hexec : exec i s = .next (transmit a f st n s) := by rw [exec_eq_next, executed_of_requestOf hi]
  refine ⟨_, hexec, (execAll_cons (.encBuild a f st n) _ s _ rfl).trans (execAll_txPop 8 _), ?_⟩
  rw [transmit_eq]
  refine ⟨rfl, Memory.readBytes_writeBytes s.txbuf 0 (buildRequest a f st n), fun k hk => ?_, rfl⟩
  have habove : ¬ (0 ≤ k ∧ k < 0 + (buildRequest a f st n).length) := by
    rw [length_buildRequest]
    omega
  rw [Memory.read_writeBytes, if_neg habove]

theorem crcBytes_le16 (l h : Byte) : crcBytes (le16 l h) = [l, h] := by
  have hlo : lo (le16 l h) = l := by
    apply BitVec.eq_of_getLsbD_eq
    intro k hk
    simp [lo, le16, be16, zext16, hk, show k < 16 by omega]
  have hhi : hi (le16 l h) = h := by
    apply BitVec.eq_of_getLsbD_eq
    intro k hk
    simp [hi, le16, be16, zext16, hk, show 8 + k < 16 by omega]
  rw [crcBytes, hlo, hhi]

/-- The CRC bytes of a well-formed request row are those of its other operands (R81). -/
theorem encode_of_requestOf {i : Instr} {a f : Byte} {st n : Word} (hwf : WellFormed i)
    (hi : requestOf i = some (a, f, st, n)) :
    ∃ l h, encode i = encRequest a f st n l h ∧ buildRequest a f st n = requestHeader a f st n ++ [l, h] := by
  have bytes {f : Byte} {l h : Byte} (hcrc : requestCrcOk a f st n l h) :
      buildRequest a f st n = requestHeader a f st n ++ [l, h] := by
    rw [buildRequest, ← hcrc, crcBytes_le16]
  cases i <;> cases hi
  case req l h =>
    obtain ⟨-, hcrc⟩ := of_decide_eq_true hwf
    exact ⟨l, h, rfl, bytes hcrc⟩
  case reqF03 l h => exact ⟨l, h, rfl, bytes (of_decide_eq_true hwf)⟩

/-- Settles O53: the row sends `build_request` of its operands, and so are the bytes of its encoding, CRC included. -/
theorem requestRowBytesAreTheEncoding : Obligations.RequestRowBytesAreTheEncoding := by
  intro i a f st n s hwf hi
  obtain ⟨l, h, hencode, hbytes⟩ := encode_of_requestOf hwf hi
  have hword := (bytes_of_requestWord a f st n l h).trans hbytes.symm
  refine ⟨_, transmit a f st n s, hencode, ?_, ?_, hword.symm⟩
  · rw [exec_eq_next, executed_of_requestOf hi]
  · rw [transmit_eq, ← hword, List.map_map]
    rfl

/-! ### Receiving a response -/

theorem inbox_of_receive (x : Word) (bytes : List Byte) (s : State) : (receive x bytes s).inbox = s.inbox := by
  obtain ⟨-, -, -, -, -, -, -, -, -, hparse, -⟩ := parse_frame x (rxAppendAll bytes (rxReset s))
  obtain ⟨-, -, -, hload⟩ := rxAppendAll_spec bytes (rxReset s)
  have hinbox := congrArg State.inbox hload
  exact hparse.trans hinbox

/-- Settles O54: both programs are `receive`, which changes the receive side and the results only. -/
theorem responseRowsLoadAndParse : Obligations.ResponseRowsLoadAndParse := by
  intro i x bytes s hi
  have hexec : exec i s = .next (receive x bytes s) := by rw [exec_eq_next, executed_of_responseOf hi]
  have hrun : execAll (.rxClear :: (bytes.map .rxPush ++ [.decParse x])) s = .next (receive x bytes s) :=
    (execAll_cons .rxClear _ s (rxReset s) rfl).trans (execAll_append _ _ _ _ (execAll_rxPush bytes _))
  have hframe := ChangesOnly.receive x bytes s
  obtain ⟨htxbuf, htxPtr, htxValid⟩ := tx_of_only (hframe .tx (by decide))
  refine ⟨_, hexec, hrun, crcAcc_of_only (hframe .crc (by decide)), htxbuf, htxPtr, htxValid,
    strictCrc_of_only (hframe .ctrl (by decide)), inbox_of_receive x bytes s⟩

/-! #### The receive buffer after RX.CLEAR and one push a byte -/

/-- The state in which the frame `bytes` is parsed. -/
def loadFrame (bytes : List Byte) (s : State) : State := rxAppendAll bytes (rxReset s)

theorem receive_eq_parse (x : Word) (bytes : List Byte) (s : State) :
    receive x bytes s = parse x (loadFrame bytes s) := rfl

@[simp] theorem loadFrame_strictCrc (bytes : List Byte) (s : State) : (loadFrame bytes s).strictCrc = s.strictCrc :=
  strictCrc_of_only (((ChangesOnly.rxReset s).trans (.rxAppendAll bytes _)) .ctrl (by decide))

section

variable {bytes : List Byte} (hfits : bytes.length ≤ 260)

include hfits

theorem loadFrame_rxLen (s : State) : (loadFrame bytes s).rxLen.toNat = bytes.length := by
  obtain ⟨hlen, -⟩ := rxAppendAll_spec bytes (rxReset s)
  simpa [loadFrame, hfits] using hlen

theorem loadFrame_read (s : State) (k : Nat) : (loadFrame bytes s).rxbuf.read k = bytes.getD k 0 := by
  obtain ⟨-, hread, -⟩ := rxAppendAll_spec bytes (rxReset s)
  rw [loadFrame, hread]
  by_cases hk : k < bytes.length
  · exact if_pos ⟨Nat.zero_le k, by simpa using hk, by omega⟩
  · rw [if_neg (by simpa using fun h => absurd h hk), List.getD_eq_default _ _ (Nat.le_of_not_lt hk)]
    rfl

theorem loadFrame_readBytes (s : State) {n : Nat} (hn : n ≤ bytes.length) :
    (loadFrame bytes s).rxbuf.readBytes 0 n = bytes.take n := by
  have hall := readBytes_rxAppendAll_rxReset bytes s
  rw [min_eq_left hfits, List.take_of_length_le hfits] at hall
  rw [loadFrame, ← Memory.take_readBytes _ 0 bytes.length n hn, hall]

end

/-! #### Error frames -/

/-- The outcome of receiving an error frame, whatever its CRC and the mode (R153). -/
theorem receive_errorFrame (x : Word) (a : Byte) {f : Byte} (e l h : Byte) (s : State) (hf : errorBit f = true) :
    let t := loadFrame (errorFrame a f e l h) s
    receive x (errorFrame a f e l h) s = raise (.deviceError e (msgString e)) { t.clearResults x with
      rspAddr := a, rspFunc := f, excCode := e, msgId := msgIdOf e, crcCalc := crc16 [a, f, e], crcRcvd := le16 l h,
      crcOk := crcMatches (le16 l h) (crc16 [a, f, e]) } := by
  intro t
  have hfits : (errorFrame a f e l h).length ≤ 260 := by simp [errorFrame]
  have hlen : t.rxLen.toNat = 5 := loadFrame_rxLen hfits s
  have hread : ∀ k, t.rxbuf.read k = (errorFrame a f e l h).getD k 0 := loadFrame_read hfits s
  have hbytes : t.rxbuf.readBytes 0 3 = [a, f, e] := loadFrame_readBytes hfits s (by simp [errorFrame])
  have herr : errorBit (t.rxbuf.read 1) = true := (congrArg errorBit (hread 1)).trans hf
  obtain ⟨hshort, -⟩ | ⟨-, -, hparse⟩ | ⟨-, hnormal, -⟩ | ⟨-, hnormal, -⟩ | ⟨-, hnormal, -⟩ := parse_cases x t
  · omega
  · rw [receive_eq_parse, hparse, parseError, parseStart]
    simp only [State.clearResults_rxbuf, hread, hbytes]
    rfl
  all_goals exact absurd (herr.symm.trans hnormal) Bool.true_eq_false.mp

theorem crcMatches_eq_decide (rcvd computed : Word) : crcMatches rcvd computed = decide (rcvd = computed) :=
  beq_eq_decide rcvd computed

/-- Settles O56: every such row receives the frame, whose outcome is known in full. -/
theorem errorResponseRowOutcome : Obligations.ErrorResponseRowOutcome := by
  intro i x a f e l h s hi hf
  refine ⟨receive x (errorFrame a f e l h) s, ?_, ?_⟩
  · rw [exec_eq_next, executed_of_responseOf hi]
    rfl
  · have hlen : (loadFrame (errorFrame a f e l h) s).rxLen.toNat = 5 := loadFrame_rxLen (by simp [errorFrame]) s
    rw [receive_errorFrame x a e l h s hf]
    refine ⟨rfl, ?_, rfl, rfl, rfl, rfl, rfl, rfl, crcMatches_eq_decide _ _, rfl, rfl, rfl⟩
    rw [raise_rxLen, State.clearResults_rxLen]
    exact BitVec.eq_of_toNat_eq hlen

/-! #### Normal frames -/

section

variable (a f : Byte) {bc : Byte} {payload : List Byte} (l h : Byte) (hlen : payload.length = bc.toNat)

include hlen

theorem length_normalFrame : (normalFrame a f bc payload l h).length = bc.toNat + 5 := by
  simp [normalFrame, hlen]

theorem normalFrame_fits : (normalFrame a f bc payload l h).length ≤ 260 := by
  rw [length_normalFrame a f l h hlen]
  omega

theorem getD_normalFrame_payload {k : Nat} (hk : k < bc.toNat) :
    (normalFrame a f bc payload l h).getD (3 + k) 0 = payload.getD k 0 := by
  rw [Nat.add_comm]
  exact List.getD_append payload [l, h] 0 k (hlen ▸ hk)

theorem getD_normalFrame_crcLow : (normalFrame a f bc payload l h).getD (3 + bc.toNat) 0 = l := by
  rw [Nat.add_comm, ← hlen]
  simp [normalFrame]

theorem getD_normalFrame_crcHigh : (normalFrame a f bc payload l h).getD (3 + bc.toNat + 1) 0 = h := by
  rw [Nat.add_comm 3, Nat.add_right_comm, ← hlen]
  simp [normalFrame]

theorem take_normalFrame : (normalFrame a f bc payload l h).take (3 + bc.toNat) = a :: f :: bc :: payload := by
  rw [Nat.add_comm, ← hlen]
  simp [normalFrame]

/-- The registers of a frame are those of its payload. -/
theorem registers_normalFrame :
    ((List.range (bc.toNat / 2)).map fun k => be16 ((normalFrame a f bc payload l h).getD (3 + 2 * k) 0)
      ((normalFrame a f bc payload l h).getD (3 + 2 * k + 1) 0)) =
    (List.range (bc.toNat / 2)).map fun k => be16 (payload.getD (2 * k) 0) (payload.getD (2 * k + 1) 0) := by
  refine List.map_congr_left fun k hk => ?_
  have hk' : k < bc.toNat / 2 := List.mem_range.mp hk
  rw [Nat.add_assoc, getD_normalFrame_payload a f l h hlen (by omega),
    getD_normalFrame_payload a f l h hlen (by omega)]

/-- The outcome of receiving a normal frame: refused for its CRC in strict mode, else accepted (R156, R157). -/
theorem receive_normalFrame (x : Word) (s : State) (hf : errorBit f = false) :
    let crc := crc16 (a :: f :: bc :: payload)
    let judged := { (loadFrame (normalFrame a f bc payload l h) s).clearResults x with
      rspAddr := a, rspFunc := f, byteCount := bc, crcCalc := crc, crcRcvd := le16 l h,
      crcOk := crcMatches (le16 l h) crc }
    receive x (normalFrame a f bc payload l h) s =
      if s.strictCrc = true ∧ le16 l h ≠ crc then raise .crcMismatch judged
      else parseOk judged (bc.toNat / 2)
        ((List.range (bc.toNat / 2)).map fun k => be16 (payload.getD (2 * k) 0) (payload.getD (2 * k + 1) 0)) := by
  intro crc judged
  have hfits := normalFrame_fits a f l h hlen
  have hread := loadFrame_read hfits s
  have hrxLen := (loadFrame_rxLen hfits s).trans (length_normalFrame a f l h hlen)
  have hcovered : 3 + bc.toNat ≤ (normalFrame a f bc payload l h).length := by
    rw [length_normalFrame a f l h hlen]
    omega
  have hbytes := (loadFrame_readBytes hfits s hcovered).trans (take_normalFrame a f l h hlen)
  have hregs := registers_normalFrame a f l h hlen
  have hcases := parse_cases x (loadFrame (normalFrame a f bc payload l h) s)
  have hbc : (normalFrame a f bc payload l h).getD 2 0 = bc := rfl
  have hlow := getD_normalFrame_crcLow a f l h hlen
  have hhigh := getD_normalFrame_crcHigh a f l h hlen
  simp only [hread, hbc, hbytes, hlow, hhigh, hregs, loadFrame_strictCrc, parseStart] at hcases
  obtain ⟨hshort, -⟩ | ⟨-, herr, -⟩ | ⟨-, -, hshort, -⟩ | ⟨-, -, -, hmismatch, hparse⟩ | ⟨-, -, -, hok, hparse⟩ :=
    hcases
  · omega
  · exact absurd (hf.symm.trans herr) Bool.false_ne_true
  · omega
  · rw [if_pos hmismatch]
    exact hparse
  · rw [if_neg hok]
    exact hparse

end

/-- Settles O55: both rows receive a normal frame, which is judged by its CRC. -/
theorem normalResponseRowOutcome : Obligations.NormalResponseRowOutcome := by
  intro x a f bc payload l h i s hi hwf
  obtain ⟨hresponse, herr, hlen⟩ : responseOf i = some (x, normalFrame a f bc payload l h) ∧ errorBit f = false ∧
      payload.length = bc.toNat := by
    obtain rfl | ⟨rfl, rfl⟩ := hi
    · obtain ⟨herr, -, hlen⟩ := of_decide_eq_true hwf
      exact ⟨rfl, herr, hlen⟩
    · exact ⟨rfl, rfl, of_decide_eq_true hwf⟩
  have hrxLen : (loadFrame (normalFrame a f bc payload l h) s).rxLen.toNat = bc.toNat + 5 :=
    (loadFrame_rxLen (normalFrame_fits a f l h hlen) s).trans (length_normalFrame a f l h hlen)
  have hreceive := receive_normalFrame a f l h hlen x s herr
  refine ⟨_, by rw [exec_eq_next, executed_of_responseOf hresponse], ?_⟩
  extract_lets crc judged at hreceive
  split at hreceive <;> rw [hreceive]
  next hmismatch =>
    obtain ⟨hstrict, hne⟩ := hmismatch
    refine ⟨hrxLen, rfl, rfl, rfl, rfl, rfl, rfl, fun _ _ => ⟨rfl, rfl, rfl⟩, fun hok => ?_⟩
    obtain hparity | heq := hok
    · exact absurd (hstrict.symm.trans hparity) Bool.true_eq_false.mp
    · exact absurd heq hne
  next hok =>
    refine ⟨hrxLen, rfl, rfl, rfl, rfl, rfl, rfl, fun hstrict hne => absurd ⟨hstrict, hne⟩ hok, fun _ =>
      ⟨rfl, rfl, ?_, fun k hk => ?_⟩⟩
    · rw [parseOk_regs, List.length_map, List.length_range]
    · rw [parseOk_regs, List.getD_eq_getElem?_getD]
      simp [hk]

end Sys2Proof.Machine

/-! # The CRC unit

The serial step bit by bit and its injectivity, what several steps do to a word whose low bits are clear, the residue
law that follows from these two, and what the CRC commands leave in the accumulator. -/

namespace Sys2Proof.Machine

/-! ### The serial step -/

/-- The set bits of the polynomial 0xA001. -/
theorem getLsbD_crcPolyR (k : Nat) : Config.crcPolyR.getLsbD k = decide (k = 0 ∨ k = 13 ∨ k = 15) := by
  by_cases hk : k < 16
  · revert k
    decide
  · rw [BitVec.getLsbD_of_ge _ _ (Nat.le_of_not_lt hk), eq_comm, decide_eq_false_iff_not]
    omega

/-- The serial step in one formula: the word shifted, and the bits of the polynomial flipped where the bit shifted out
is set. -/
theorem getLsbD_crcShift1 (a : Word) (k : Nat) :
    (crcShift1 a).getLsbD k = (a.getLsbD (k + 1) ^^ (a.getLsbD 0 && decide (k = 0 ∨ k = 13 ∨ k = 15))) := by
  rw [← getLsbD_crcPolyR, crcShift1, Nat.add_comm k 1, ← BitVec.getLsbD_ushiftRight]
  split
  next hout => rw [hout, Bool.true_and, BitVec.getLsbD_xor]
  next hout => rw [eq_false_of_ne_true hout, Bool.false_and, Bool.xor_false]

/-- Settles O20: only the bits 15, 13 and 0 of the polynomial are set, and a zero is shifted into bit 15. -/
theorem crcShiftBitByBit : Obligations.CrcShiftBitByBit := by
  intro a
  refine ⟨?_, ?_, ?_, fun i h1 h12 => ?_, ?_⟩ <;> rw [getLsbD_crcShift1]
  · simp
  · simp
  · simp
  · have hclear : ¬ (i = 0 ∨ i = 13 ∨ i = 15) := by omega
    rw [decide_eq_false hclear, Bool.and_false, Bool.xor_false]
  · simp

/-- Bit 15 of the result tells the bit shifted out, and with it every other bit can be restored. -/
theorem crcShift1_injective : Function.Injective crcShift1 := by
  intro a b h
  obtain ⟨ha, -⟩ := crcShiftBitByBit a
  obtain ⟨hb, -⟩ := crcShiftBitByBit b
  have hout : a.getLsbD 0 = b.getLsbD 0 := by rw [← ha, h, hb]
  apply BitVec.eq_of_getLsbD_eq
  intro k _
  cases k with
  | zero => exact hout
  | succ k =>
    have hbit := congrArg (BitVec.getLsbD · k) h
    simp only [getLsbD_crcShift1, hout] at hbit
    exact Bool.xor_left_inj.mp hbit

theorem crcShifts_injective (n : Nat) : Function.Injective (crcShifts n) := by
  induction n with
  | zero => exact Function.injective_id
  | succ n ih => exact ih.comp crcShift1_injective

/-- While only zeros are shifted out, the steps are a plain shift. -/
theorem crcShifts_eq_ushiftRight {n : Nat} {a : Word} (h : ∀ k < n, a.getLsbD k = false) :
    crcShifts n a = a >>> n := by
  induction n generalizing a with
  | zero => simp [crcShifts]
  | succ n ih =>
    have hstep : crcShift1 a = a >>> 1 := if_neg (ne_true_of_eq_false (h 0 n.succ_pos))
    have hrest : ∀ k < n, (a >>> 1).getLsbD k = false := fun k hk => by
      rw [BitVec.getLsbD_ushiftRight]
      exact h (1 + k) (by omega)
    rw [crcShifts, hstep, ih hrest, ← BitVec.shiftRight_add, Nat.add_comm]

/-! ### The residue (R120) -/

theorem crcFrom_append (a : Word) (d e : List Byte) : crcFrom a (d ++ e) = crcFrom (crcFrom a d) e := by
  induction d generalizing a with
  | nil => rfl
  | cons b d ih => exact ih (crcUpdate a b)

theorem crcUpdate_injective (b : Byte) : Function.Injective (crcUpdate · b) := fun _ _ h =>
  (BitVec.xor_left_inj (zext16 b)).mp (crcShifts_injective 8 h)

theorem crcUpdate_zext16 (b : Byte) : crcUpdate (zext16 b) b = 0 := by
  rw [crcUpdate, BitVec.xor_self]
  rfl

theorem le16_xor_zext16 (l h : Byte) : le16 l h ^^^ zext16 l = zext16 h <<< 8 := by
  apply BitVec.eq_of_getLsbD_eq
  intro k hk
  by_cases hlow : k < 8
  · simp [le16, be16, zext16, hk, hlow]
  · simp [le16, be16, zext16, hk, hlow, BitVec.getLsbD_of_ge l k (Nat.le_of_not_lt hlow)]

theorem zext16_shiftLeft_ushiftRight (b : Byte) : zext16 b <<< 8 >>> 8 = zext16 b := by
  apply BitVec.eq_of_getLsbD_eq
  intro k hk
  have hfits : b.getLsbD k = true → 8 + k < 16 := fun hbit => Nat.add_lt_add_left (BitVec.lt_of_getLsbD hbit) 8
  simpa [zext16, hk] using hfits

/-- A byte clears the low half of the accumulator that holds it, and the eight steps then shift the high half down. -/
theorem crcUpdate_le16 (l h : Byte) : crcUpdate (le16 l h) l = zext16 h := by
  have hlow : ∀ k < 8, (zext16 h <<< 8).getLsbD k = false := fun k hk => by simp [hk]
  rw [crcUpdate, le16_xor_zext16, crcShifts_eq_ushiftRight hlow, zext16_shiftLeft_ushiftRight]

/-- Settles O24: absorbing a byte is injective, so each of the two bytes gives its result from one accumulator only: the
last gives 0 from itself, and the first gives the last from the CRC that the two spell. -/
theorem residueIdentifiesTheCrcBytes : Obligations.ResidueIdentifiesTheCrcBytes := by
  intro d x y
  calc crc16 (d ++ [x, y]) = 0
    _ ↔ crcUpdate (crcUpdate (crc16 d) x) y = crcUpdate (zext16 y) y := by
      rw [crc16, crcFrom_append, crcUpdate_zext16]
      rfl
    _ ↔ crcUpdate (crc16 d) x = crcUpdate (le16 x y) x := by
      rw [(crcUpdate_injective y).eq_iff, crcUpdate_le16]
    _ ↔ crc16 d = le16 x y := (crcUpdate_injective x).eq_iff
    _ ↔ le16 x y = crc16 d := eq_comm

/-! ### The commands -/

/-- Settles O21: each command is its one write of the accumulator and its reply. -/
theorem crcCommandsTouchOnlyTheAccumulator : Obligations.CrcCommandsTouchOnlyTheAccumulator :=
  fun _ _ => ⟨rfl, rfl, rfl, rfl, rfl⟩

theorem executed_crcByte (b : Byte) (s : State) : executed (.crcByte b) s = setCrc (crcUpdate s.crcAcc b) s := rfl

theorem execAll_crcShift (n : Nat) (s : State) : execAll (List.replicate n .crcShift) s =
    .next { s with crcAcc := crcShifts n s.crcAcc, replies := List.replicate n .done ++ s.replies } := by
  induction n generalizing s with
  | zero => rfl
  | succ n ih =>
    rw [List.replicate_succ, execAll_cons .crcShift _ s (setCrc (crcShift1 s.crcAcc) s) rfl, ih,
      List.replicate_succ', List.append_assoc]
    rfl

/-- Settles O22: both leave the eight steps of the accumulator with the byte in its low half. -/
theorem crcByteIsXorbAndEightShifts : Obligations.CrcByteIsXorbAndEightShifts := by
  intro b s
  exact ⟨_, _, rfl, (execAll_cons (.crcXorb b) _ s _ rfl).trans (execAll_crcShift 8 _), rfl⟩

theorem absorbed_eq_none {i : Instr} (h : writesCrc i = false) : absorbed i = none := by
  cases i with
  | crcByte => exact absurd h.symm Bool.false_ne_true
  | _ => rfl

theorem eq_crcByte_of_absorbed {i : Instr} {b : Byte} (h : absorbed i = some b) : i = .crcByte b := by
  cases i <;> cases h
  rfl

/-- From any accumulator a program whose only CRC writers are CRC.BYTE goes on with the CRC of the bytes it absorbs. -/
theorem execAll_crcAcc (p : List Instr) (s : State) (hp : ∀ i ∈ p, writesCrc i = false ∨ (absorbed i).isSome) :
    ∃ t, execAll p s = .next t ∧ t.crcAcc = crcFrom s.crcAcc (p.filterMap absorbed) := by
  induction p generalizing s with
  | nil => exact ⟨s, rfl, rfl⟩
  | cons i p ih =>
    obtain ⟨hi, hrest⟩ := List.forall_mem_cons.mp hp
    obtain ⟨t, ht, hacc⟩ := ih (executed i s) hrest
    refine ⟨t, (execAll_cons i p s _ (exec_eq_next i s)).trans ht, hacc.trans ?_⟩
    obtain hother | hbyte := hi
    · rw [List.filterMap_cons_none (absorbed_eq_none hother), crcAcc_of_only (executed_only (p := .crc) hother s)]
    · obtain ⟨b, hb⟩ := Option.isSome_iff_exists.mp hbyte
      rw [List.filterMap_cons_some hb, eq_crcByte_of_absorbed hb, executed_crcByte, setCrc_crcAcc, crcFrom]

/-- Settles O23: CRC.INIT sets the start value of `crc16`. -/
theorem crcCommandsComputeCrc16 : Obligations.CrcCommandsComputeCrc16 := by
  intro p s hp
  rw [execAll_cons .crcInit p s (setCrc Config.crcInit s) rfl]
  exact execAll_crcAcc p (setCrc Config.crcInit s) hp

/-- Settles O25: the three sequences are evaluated. -/
theorem crcReferenceValues : Obligations.CrcReferenceValues :=
  ⟨rfl, by decide +kernel, by decide +kernel⟩

end Sys2Proof.Machine

/-! # The encoder

The properties of the request frame itself (R137), the effect of ENC.BUILD and of TX.POP (R130 to R135), and what the
pops after an ENC.BUILD reply, whatever the host issues between them that leaves the transmit side alone (R136). -/

namespace Sys2Proof.Machine

/-! ### The request frame (R132, R137) -/

theorem be16_hi_lo (v : Word) : be16 (hi v) (lo v) = v := by
  apply BitVec.eq_of_getLsbD_eq
  intro k hk
  by_cases hlow : k < 8
  · simp [be16, hi, lo, zext16, hk, hlow]
  · simp [be16, hi, lo, zext16, hk, hlow, show k - 8 < 8 by omega, show 8 + (k - 8) = k by omega]

/-- The two bytes of a word determine it. -/
theorem eq_of_hi_of_lo {v w : Word} (hhi : hi v = hi w) (hlo : lo v = lo w) : v = w := by
  rw [← be16_hi_lo v, hhi, hlo, be16_hi_lo]

theorem requestHeader_inj {a f a' f' : Byte} {st n st' n' : Word}
    (h : requestHeader a' f' st' n' = requestHeader a f st n) : a' = a ∧ f' = f ∧ st' = st ∧ n' = n := by
  simp only [requestHeader, List.cons.injEq] at h
  obtain ⟨ha, hf, hst1, hst0, hn1, hn0, -⟩ := h
  exact ⟨ha, hf, eq_of_hi_of_lo hst1 hst0, eq_of_hi_of_lo hn1 hn0⟩

theorem buildRequest_inj {a f a' f' : Byte} {st n st' n' : Word}
    (h : buildRequest a' f' st' n' = buildRequest a f st n) : a' = a ∧ f' = f ∧ st' = st ∧ n' = n :=
  requestHeader_inj (List.append_inj_left h rfl)

/-- Settles O28: the bytes are the halves of the operands and of the header's CRC, the residue law applies to the header
with its own CRC bytes behind it, and the header alone determines the operands. -/
theorem requestFrameProperties : Obligations.RequestFrameProperties := by
  intro a f st n
  have hcrc : le16 (lo (crc16 (requestHeader a f st n))) (hi (crc16 (requestHeader a f st n))) =
      crc16 (requestHeader a f st n) := be16_hi_lo _
  refine ⟨hi st, lo st, hi n, lo n, _, _, rfl, be16_hi_lo st, be16_hi_lo n, hcrc, ?_, fun _ _ _ _ => buildRequest_inj⟩
  exact (residueIdentifiesTheCrcBytes _ _ _).mpr hcrc

/-! ### ENC.BUILD (R130, R131, R133) -/

theorem readBytes_txBuild (a f : Byte) (st n : Word) (s : State) :
    (txBuild a f st n s).txbuf.readBytes 0 8 = buildRequest a f st n :=
  Memory.readBytes_writeBytes s.txbuf 0 (buildRequest a f st n)

/-- Behind the frame the storage is as before. -/
theorem read_txBuild_above (a f : Byte) (st n : Word) (s : State) {k : Nat} (hk : 8 ≤ k) :
    (txBuild a f st n s).txbuf.read k = s.txbuf.read k := by
  have habove : ¬ (0 ≤ k ∧ k < 0 + (buildRequest a f st n).length) := by
    rw [length_buildRequest]
    omega
  rw [txBuild_txbuf, Memory.read_writeBytes, if_neg habove]

/-- Settles O27: ENC.BUILD is `txBuild`, which tests neither its operands nor the flag. -/
theorem encBuildStoresTheFrame : Obligations.EncBuildStoresTheFrame := fun a f st n s =>
  ⟨txBuild a f st n s, rfl, rfl, readBytes_txBuild a f st n s, fun _ => read_txBuild_above a f st n s⟩

/-! ### TX.POP (R134, R135) -/

theorem txTake_of_pending {s : State} (hs : s.txValid = true) :
    txTake s = { s with txPtr := s.txPtr + 1, txValid := decide (s.txPtr + 1 ≠ 8) }.log
      (byteReply (s.txbuf.read s.txPtr.toNat)) := by
  obtain ⟨hidle, -⟩ | ⟨-, htake⟩ := txTake_cases s
  · exact absurd (hidle.symm.trans hs) Bool.false_ne_true
  · exact htake

theorem txTake_of_idle {s : State} (hs : s.txValid = false) : txTake s = refuse .txEmpty s := if_pos hs

/-- Settles O29: TX.POP is `txTake`, in its two cases. -/
theorem txPopHandsOutOneByte : Obligations.TxPopHandsOutOneByte := fun _ =>
  ⟨fun hs => congrArg Host.Outcome.next (txTake_of_pending hs), fun hs => congrArg Host.Outcome.next (txTake_of_idle hs)⟩

/-! ### The pops after an ENC.BUILD (R136) -/

/-- The transmit side after an ENC.BUILD of `frame` and `k` pops: the frame is still stored, the pointer has moved to
its end at most, and the frame is pending while bytes are left. -/
structure Sending (frame : List Byte) (k : Nat) (s : State) : Prop where
  stored : s.txbuf.readBytes 0 8 = frame
  pointer : s.txPtr.toNat = min k 8
  pending : s.txValid = decide (k < 8)

/-- What the pop after `k` others replies: byte `k` of the frame, and `TxEmpty` past its end. -/
def popReply (frame : List Byte) (k : Nat) : Reply :=
  if k < 8 then byteReply (frame.getD k 0) else .refused .txEmpty

theorem sending_txBuild (a f : Byte) (st n : Word) (s : State) :
    Sending (buildRequest a f st n) 0 (txBuild a f st n s) :=
  ⟨readBytes_txBuild a f st n s, rfl, rfl⟩

section
variable {frame : List Byte} {k : Nat} {s t : State}

theorem Sending.of_only (h : Sending frame k s) (ht : t.only .tx = s.only .tx) : Sending frame k t := by
  obtain ⟨hbuf, hptr, hvalid⟩ := tx_of_only ht
  exact ⟨hbuf ▸ h.stored, hptr ▸ h.pointer, hvalid ▸ h.pending⟩

theorem Sending.pop (h : Sending frame k s) :
    Sending frame (k + 1) (txTake s) ∧ (txTake s).replies.head? = some (popReply frame k) := by
  obtain ⟨hstored, hptr, hpending⟩ := h
  by_cases hk : k < 8
  · have hk' : s.txPtr.toNat = k := by omega
    have hbyte : s.txbuf.read s.txPtr.toNat = frame.getD k 0 := by
      rw [← hstored, Memory.getD_readBytes _ _ _ _ hk, Nat.zero_add, hk']
    have hleft : decide (s.txPtr + 1 ≠ 8) = decide (k + 1 < 8) := by
      rw [decide_eq_decide]
      bv_omega
    rw [txTake_of_pending (by rw [hpending, decide_eq_true hk]), hbyte, popReply, if_pos hk]
    exact ⟨⟨hstored, show (s.txPtr + 1).toNat = min (k + 1) 8 by bv_omega, hleft⟩, rfl⟩
  · have hdone : decide (k + 1 < 8) = decide (k < 8) := by
      rw [decide_eq_decide]
      omega
    rw [txTake_of_idle (by rw [hpending, decide_eq_false hk]), popReply, if_neg hk]
    exact ⟨⟨hstored, show s.txPtr.toNat = min (k + 1) 8 by omega, hpending.trans hdone.symm⟩, rfl⟩

end

/-- The frame of a list of instructions: a part that none of them writes is as before. -/
theorem execAll_only {p : Part} {is : List Instr} (his : ∀ i ∈ is, writes p i = false) (s : State) :
    ∃ t, execAll is s = .next t ∧ t.only p = s.only p := by
  induction is generalizing s with
  | nil => exact ⟨s, rfl, rfl⟩
  | cons i is ih =>
    obtain ⟨hi, hrest⟩ := List.forall_mem_cons.mp his
    obtain ⟨t, ht, honly⟩ := ih hrest (executed i s)
    exact ⟨t, (execAll_cons i is s _ (exec_eq_next i s)).trans ht, honly.trans (executed_only hi s)⟩

/-- The host's commands before each pop, and the pop. -/
def popsAfter (gaps : List (List Instr)) : List Instr := gaps.flatMap fun g => g ++ [.txPop]

/-- One pop, with commands before it that leave the transmit side alone. -/
theorem Sending.execAll_pop {frame : List Byte} {k : Nat} {s : State} (h : Sending frame k s) {g : List Instr}
    (hg : ∀ i ∈ g, writesTx i = false) :
    ∃ t, execAll (g ++ [.txPop]) s = .next t ∧ Sending frame (k + 1) t ∧ t.replies.head? = some (popReply frame k) := by
  obtain ⟨u, hu, honly⟩ := execAll_only (p := .tx) hg s
  exact ⟨txTake u, execAll_append g _ s u hu, (h.of_only honly).pop⟩

/-- After any number of pops the last has replied its own byte, or `TxEmpty`. -/
theorem Sending.execAll_popsAfter {frame : List Byte} (gaps : List (List Instr)) {g : List Instr} {k : Nat} {s : State}
    (h : Sending frame k s) (hgaps : ∀ g' ∈ g :: gaps, ∀ i ∈ g', writesTx i = false) :
    ∃ t, execAll (popsAfter (g :: gaps)) s = .next t ∧ t.replies.head? = some (popReply frame (k + gaps.length)) := by
  induction gaps generalizing g k s with
  | nil =>
    obtain ⟨t, ht, -, hreply⟩ := h.execAll_pop (hgaps g List.mem_cons_self)
    exact ⟨t, by rwa [popsAfter, List.flatMap_singleton], hreply⟩
  | cons g' gaps ih =>
    obtain ⟨hg, hrest⟩ := List.forall_mem_cons.mp hgaps
    obtain ⟨u, hu, hsending, -⟩ := h.execAll_pop hg
    obtain ⟨t, ht, hreply⟩ := ih hsending hrest
    refine ⟨t, (execAll_append _ _ s u hu).trans ht, ?_⟩
    rwa [List.length_cons, Nat.add_comm gaps.length, ← Nat.add_assoc]

/-- Settles O30: the pops start from the frame ENC.BUILD stored, with none of it handed out. -/
theorem eightPopsDeliverTheRequest : Obligations.EightPopsDeliverTheRequest := by
  intro a f st n s gaps hgaps hsome _
  cases gaps with
  | nil => exact absurd hsome (Nat.not_succ_le_zero 0)
  | cons g gaps =>
    obtain ⟨t, ht, hreply⟩ := (sending_txBuild a f st n s).execAll_popsAfter gaps hgaps
    refine ⟨t, (execAll_cons (.encBuild a f st n) _ s _ rfl).trans ht, hreply.trans ?_⟩
    rw [Nat.zero_add]
    rfl

end Sys2Proof.Machine

/-! # The decoder

`decode_response` as one length test and one verdict on a whole frame, what follows of it for sequences of bytes, the
ways of DEC.PARSE as equations, and what the block replies and keeps of a response. -/

namespace Sys2Proof.Machine

/-! ### The length a frame announces and the verdict on a whole frame (R150, R161) -/

/-- The length that the second and third byte announce (R84). -/
def announcedLength (raw : List Byte) : Nat :=
  if errorBit (byteOf raw 1) then 5 else 3 + (byteOf raw 2).toNat + 2

/-- The two bytes after the payload are the CRC of all before them (R82). -/
abbrev CrcFits (raw : List Byte) : Prop :=
  le16 (byteOf raw (3 + (byteOf raw 2).toNat)) (byteOf raw (3 + (byteOf raw 2).toNat + 1)) =
    crc16 (raw.take (3 + (byteOf raw 2).toNat))

/-- `decode_response` of a sequence that is as long as it announces. -/
def frameVerdict (raw : List Byte) (strict : Bool) : Except ProtocolError (List Word) :=
  if errorBit (byteOf raw 1) then .error (.deviceError (byteOf raw 2) (msgString (byteOf raw 2)))
  else if strict = true ∧ ¬ CrcFits raw then .error .crcMismatch
  else .ok (registersOf raw (byteOf raw 2).toNat)

section

variable {raw : List Byte} {strict : Bool}

theorem announcedLength_of_error (h : errorBit (byteOf raw 1) = true) : announcedLength raw = 5 := if_pos h

theorem announcedLength_of_normal (h : errorBit (byteOf raw 1) = false) :
    announcedLength raw = 3 + (byteOf raw 2).toNat + 2 := if_neg (ne_true_of_eq_false h)

theorem frameVerdict_of_error (h : errorBit (byteOf raw 1) = true) :
    frameVerdict raw strict = .error (.deviceError (byteOf raw 2) (msgString (byteOf raw 2))) := if_pos h

theorem frameVerdict_of_mismatch (h : errorBit (byteOf raw 1) = false) (hcrc : strict = true ∧ ¬ CrcFits raw) :
    frameVerdict raw strict = .error .crcMismatch :=
  (if_neg (ne_true_of_eq_false h)).trans (if_pos hcrc)

theorem frameVerdict_of_ok (h : errorBit (byteOf raw 1) = false) (hcrc : ¬ (strict = true ∧ ¬ CrcFits raw)) :
    frameVerdict raw strict = .ok (registersOf raw (byteOf raw 2).toNat) :=
  (if_neg (ne_true_of_eq_false h)).trans (if_neg hcrc)

theorem five_le_announcedLength (raw : List Byte) : 5 ≤ announcedLength raw := by
  unfold announcedLength
  split <;> omega

/-- One byte holds the byte count: no frame is longer than the receive buffer. -/
theorem announcedLength_le (raw : List Byte) : announcedLength raw ≤ 260 := by
  unfold announcedLength
  split <;> omega

/-- The two length tests of R161 are one, against the length announced. -/
theorem decodeResponse_eq (raw : List Byte) (strict : Bool) :
    decodeResponse raw strict =
      if raw.length < announcedLength raw then .error .shortResponse else frameVerdict raw strict := by
  have hmin := five_le_announcedLength raw
  unfold decodeResponse
  split
  next h5 => rw [if_pos (Nat.lt_of_lt_of_le h5 hmin)]
  next h5 =>
    split
    next herr =>
      rw [announcedLength_of_error herr, frameVerdict_of_error herr]
      exact (if_neg h5).symm
    next herr =>
      have hnormal : errorBit (byteOf raw 1) = false := eq_false_of_ne_true herr
      rw [announcedLength_of_normal hnormal]
      extract_lets bc
      split
      · rfl
      · rw [frameVerdict, if_neg herr]
        simp [CrcFits, bc]

theorem decodeResponse_of_lt (h : raw.length < announcedLength raw) :
    decodeResponse raw strict = .error .shortResponse := (decodeResponse_eq raw strict).trans (if_pos h)

theorem decodeResponse_of_le (h : announcedLength raw ≤ raw.length) :
    decodeResponse raw strict = frameVerdict raw strict :=
  (decodeResponse_eq raw strict).trans (if_neg (Nat.not_lt.mpr h))

/-! ### Bytes that count and bytes that do not (R148, R158, R170) -/

theorem byteOf_take (raw : List Byte) {n i : Nat} (h : i < n) : byteOf (raw.take n) i = byteOf raw i := by
  simp [byteOf, List.getD_eq_getElem?_getD, List.getElem?_take_of_lt h]

/-- The first three bytes announce the length. -/
theorem announcedLength_take (raw : List Byte) {n : Nat} (h : 3 ≤ n) :
    announcedLength (raw.take n) = announcedLength raw := by
  rw [announcedLength, byteOf_take raw (by omega), byteOf_take raw (by omega), announcedLength]

theorem registersOf_take (raw : List Byte) {bc n : Nat} (h : 3 + bc ≤ n) :
    registersOf (raw.take n) bc = registersOf raw bc := by
  refine List.map_congr_left fun k hk => ?_
  have hk' : k < bc / 2 := List.mem_range.mp hk
  rw [byteOf_take raw (by omega), byteOf_take raw (by omega)]

/-- The verdict is on the bytes of the frame. -/
theorem frameVerdict_take {n : Nat} (h : announcedLength raw ≤ n) :
    frameVerdict (raw.take n) strict = frameVerdict raw strict := by
  have hmin := five_le_announcedLength raw
  have h1 : byteOf (raw.take n) 1 = byteOf raw 1 := byteOf_take raw (by omega)
  have h2 : byteOf (raw.take n) 2 = byteOf raw 2 := byteOf_take raw (by omega)
  cases herr : errorBit (byteOf raw 1) with
  | true => rw [frameVerdict_of_error (h1 ▸ herr), frameVerdict_of_error herr, h2]
  | false =>
    rw [announcedLength_of_normal herr] at h
    have hcrc : CrcFits (raw.take n) ↔ CrcFits raw := by
      rw [CrcFits, h2, byteOf_take raw (by omega), byteOf_take raw (by omega), List.take_take, min_eq_left (by omega)]
    simp only [frameVerdict, h1, h2, hcrc, registersOf_take raw (show 3 + (byteOf raw 2).toNat ≤ n by omega)]

/-- Bytes past the announced length do not count. -/
theorem decodeResponse_take {n : Nat} (h : announcedLength raw ≤ n) :
    decodeResponse (raw.take n) strict = decodeResponse raw strict := by
  have hmin := five_le_announcedLength raw
  have hlen : (raw.take n).length < announcedLength raw ↔ raw.length < announcedLength raw := by
    rw [List.length_take]
    omega
  simp only [decodeResponse_eq, announcedLength_take raw (show 3 ≤ n by omega), frameVerdict_take h, hlen]

end

/-- Settles O40: what is not short is at least as long as it announces, and so the bytes after it do not count. -/
theorem trailingBytesAreIgnored : Obligations.TrailingBytesAreIgnored := by
  intro raw more strict hwhole
  have hlen : announcedLength raw ≤ raw.length := Nat.le_of_not_lt fun h => hwhole (decodeResponse_of_lt h)
  have hmin := five_le_announcedLength raw
  have hhead : (raw ++ more).take raw.length = raw := List.take_left
  have hannounced := announcedLength_take (raw ++ more) (show 3 ≤ raw.length by omega)
  rw [hhead] at hannounced
  have hresult := decodeResponse_take (strict := strict) (hannounced ▸ hlen)
  rw [hhead] at hresult
  exact hresult.symm

/-- Settles O41: three bytes or more of a frame announce its length, and fewer are too few
for any frame. -/
theorem properPrefixOfAFrameIsShort : Obligations.ProperPrefixOfAFrameIsShort := by
  intro raw strict k hframe hk
  have hlen : raw.length = announcedLength raw := hframe
  apply decodeResponse_of_lt
  rw [List.length_take_of_le hk.le]
  by_cases h3 : 3 ≤ k
  · rwa [announcedLength_take raw h3, ← hlen]
  · have hmin := five_le_announcedLength (raw.take k)
    omega

/-- Settles O42: the modes share the length test, and the verdicts differ in the CRC test of strict mode only. -/
theorem modesDifferOnlyOnMismatch : Obligations.ModesDifferOnlyOnMismatch := by
  intro raw
  by_cases hlen : raw.length < announcedLength raw
  · simp [decodeResponse_of_lt hlen]
  · simp only [decodeResponse_of_le (Nat.le_of_not_lt hlen)]
    cases herr : errorBit (byteOf raw 1) with
    | true => simp [frameVerdict_of_error herr]
    | false =>
      have hparity := frameVerdict_of_ok (strict := false) herr fun ⟨hstrict, _⟩ => Bool.false_ne_true hstrict
      by_cases hcrc : CrcFits raw
      · simp [hparity, frameVerdict_of_ok (strict := true) herr fun ⟨_, hmisfit⟩ => hmisfit hcrc]
      · simp [hparity, frameVerdict_of_mismatch herr ⟨rfl, hcrc⟩]

/-! ### Fabricated responses (R167) -/

theorem errorBit_eq_getLsbD (f : Byte) : errorBit f = f.getLsbD 7 := by
  have hmask : f &&& 0x80 = if f.getLsbD 7 then BitVec.twoPow 8 7 else 0 := BitVec.and_twoPow f 7
  rw [errorBit, hmask]
  cases f.getLsbD 7 <;> rfl

theorem errorBit_setErrorBit (f : Byte) : errorBit (f ||| 0x80) = true := by
  simp [errorBit_eq_getLsbD]

theorem decodeResponse_errorFrame (a : Byte) {f : Byte} (e l h : Byte) (strict : Bool) (hf : errorBit f = true) :
    decodeResponse (errorFrame a f e l h) strict = .error (.deviceError e (msgString e)) :=
  (decodeResponse_of_le (announcedLength_of_error (raw := errorFrame a f e l h) hf).le).trans
    (frameVerdict_of_error (raw := errorFrame a f e l h) hf)

/-- A normal frame with the right CRC is accepted in both modes, with the registers of its payload. -/
theorem decodeResponse_normalFrame (a : Byte) {f bc : Byte} {payload : List Byte} {l h : Byte} (strict : Bool)
    (hf : errorBit f = false) (hlen : payload.length = bc.toNat)
    (hcrc : le16 l h = crc16 (a :: f :: bc :: payload)) :
    decodeResponse (normalFrame a f bc payload l h) strict =
      .ok ((List.range (bc.toNat / 2)).map fun k => be16 (payload.getD (2 * k) 0) (payload.getD (2 * k + 1) 0)) := by
  have hannounced : announcedLength (normalFrame a f bc payload l h) = 3 + bc.toNat + 2 := announcedLength_of_normal hf
  have hwhole : announcedLength (normalFrame a f bc payload l h) ≤ (normalFrame a f bc payload l h).length := by
    rw [hannounced, length_normalFrame a f l h hlen]
    omega
  have hfits : CrcFits (normalFrame a f bc payload l h) := by
    change le16 ((normalFrame a f bc payload l h).getD (3 + bc.toNat) 0)
      ((normalFrame a f bc payload l h).getD (3 + bc.toNat + 1) 0) = _
    rw [getD_normalFrame_crcLow a f l h hlen, getD_normalFrame_crcHigh a f l h hlen, hcrc]
    exact congrArg crc16 (take_normalFrame a f l h hlen).symm
  calc decodeResponse (normalFrame a f bc payload l h) strict
    _ = frameVerdict (normalFrame a f bc payload l h) strict := decodeResponse_of_le hwhole
    _ = .ok (registersOf (normalFrame a f bc payload l h) bc.toNat) :=
      frameVerdict_of_ok (raw := normalFrame a f bc payload l h) hf fun ⟨_, hmisfit⟩ => hmisfit hfits
    _ = _ := congrArg Except.ok (registers_normalFrame a f l h hlen)

theorem length_payloadOf (regs : List Word) : (payloadOf regs).length = 2 * regs.length := by
  induction regs with
  | nil => rfl
  | cons r regs ih => simp only [payloadOf, List.length_cons, ih, Nat.mul_succ]

/-- The payload read back in pairs, high byte first, is the registers. -/
theorem registers_payloadOf (regs : List Word) :
    ((List.range regs.length).map fun k =>
      be16 ((payloadOf regs).getD (2 * k) 0) ((payloadOf regs).getD (2 * k + 1) 0)) = regs := by
  induction regs with
  | nil => rfl
  | cons r regs ih =>
    rw [List.length_cons, List.range_succ_eq_map, List.map_cons, List.map_map]
    exact congrArg₂ List.cons (be16_hi_lo r) ih

/-- Settles O43: a fabricated response is a normal frame with the right CRC whose payload spells the registers, a
fabricated error is an error frame. -/
theorem fabricatedResponsesRoundTrip : Obligations.FabricatedResponsesRoundTrip := by
  refine ⟨fun a f regs strict hf hregs => ?_, fun a f e strict _ => ?_⟩
  · have hbc : (BitVec.ofNat 8 (2 * regs.length)).toNat = 2 * regs.length := by
      rw [BitVec.toNat_ofNat]
      omega
    refine (decodeResponse_normalFrame a strict hf ((length_payloadOf regs).trans hbc.symm) (be16_hi_lo _)).trans ?_
    rw [hbc, Nat.mul_div_cancel_left _ Nat.two_pos, registers_payloadOf]
  · exact decodeResponse_errorFrame a e _ _ strict (errorBit_setErrorBit f)

/-! ### The receive buffer (R145 to R147) -/

/-- Settles O31: RX.CLEAR is `rxReset`. -/
theorem rxClearForgetsResponseAndResults : Obligations.RxClearForgetsResponseAndResults :=
  fun s => ⟨rxReset s, rfl, rfl⟩

/-- Settles O32: RX.PUSH is `rxAppend`, in its two cases. -/
theorem rxPushAppendsOrOverflows : Obligations.RxPushAppendsOrOverflows := by
  intro b s
  refine ⟨rxAppend b s, rfl, ?_⟩
  obtain ⟨hroom, hsucc, h⟩ | ⟨hfull, h⟩ := rxAppend_cases b s <;> rw [h]
  · exact ⟨fun _ => ⟨rfl, hsucc, fun a => Memory.read_write s.rxbuf _ a b⟩, fun hfull => absurd hroom hfull.not_gt⟩
  · exact ⟨fun hroom => absurd hroom hfull.not_gt, fun _ => rfl⟩

/-! ### The five ways of DEC.PARSE (R150) -/

/-- The state in which a whole normal frame is judged: its byte count and both CRCs recorded (R150 steps 4 to 6). -/
def parseJudged (e : Word) (s : State) : State :=
  let bc := (s.rxbuf.read 2).toNat
  let rcvd := le16 (s.rxbuf.read (3 + bc)) (s.rxbuf.read (3 + bc + 1))
  let computed := crc16 (s.rxbuf.readBytes 0 (3 + bc))
  { parseStart e s with
    byteCount := s.rxbuf.read 2, crcCalc := computed, crcRcvd := rcvd, crcOk := crcMatches rcvd computed }

/-- The registers of the frame in the receive buffer (R150 step 5). -/
def rxRegisters (s : State) : List Word :=
  (List.range ((s.rxbuf.read 2).toNat / 2)).map fun k => be16 (s.rxbuf.read (3 + 2 * k)) (s.rxbuf.read (3 + 2 * k + 1))

/-- The CRC test that strict mode fails (R157). -/
abbrev CrcRefused (e : Word) (s : State) : Prop :=
  s.strictCrc = true ∧ (parseJudged e s).crcRcvd ≠ (parseJudged e s).crcCalc

section

variable (e : Word) {s : State}

theorem parse_of_short (hlen : s.rxLen.toNat < 5) : parse e s = raise .shortResponse (s.clearResults e) := if_pos hlen

theorem parse_of_error (hlen : 5 ≤ s.rxLen.toNat) (herr : errorBit (s.rxbuf.read 1) = true) :
    parse e s = parseError (parseStart e s) :=
  (if_neg (Nat.not_lt.mpr hlen)).trans (if_pos herr)

theorem parse_of_normal (hlen : 5 ≤ s.rxLen.toNat) (herr : errorBit (s.rxbuf.read 1) = false) :
    parse e s = parseNormal (parseStart e s) :=
  (if_neg (Nat.not_lt.mpr hlen)).trans (if_neg (ne_true_of_eq_false herr))

theorem parse_of_truncated (hlen : 5 ≤ s.rxLen.toNat) (herr : errorBit (s.rxbuf.read 1) = false)
    (hcut : s.rxLen.toNat < 3 + (s.rxbuf.read 2).toNat + 2) :
    parse e s = raise .shortResponse { parseStart e s with byteCount := s.rxbuf.read 2 } :=
  (parse_of_normal e hlen herr).trans (if_pos hcut)

theorem parse_of_mismatch (herr : errorBit (s.rxbuf.read 1) = false)
    (hwhole : 3 + (s.rxbuf.read 2).toNat + 2 ≤ s.rxLen.toNat) (hcrc : CrcRefused e s) :
    parse e s = raise .crcMismatch (parseJudged e s) :=
  calc parse e s
    _ = parseNormal (parseStart e s) := parse_of_normal e (by omega) herr
    _ = parseJudge { parseStart e s with byteCount := s.rxbuf.read 2 } (s.rxbuf.read 2).toNat :=
      if_neg (Nat.not_lt.mpr hwhole)
    _ = _ := if_pos hcrc

theorem parse_of_ok (herr : errorBit (s.rxbuf.read 1) = false)
    (hwhole : 3 + (s.rxbuf.read 2).toNat + 2 ≤ s.rxLen.toNat) (hcrc : ¬ CrcRefused e s) :
    parse e s = parseOk (parseJudged e s) ((s.rxbuf.read 2).toNat / 2) (rxRegisters s) :=
  calc parse e s
    _ = parseNormal (parseStart e s) := parse_of_normal e (by omega) herr
    _ = parseJudge { parseStart e s with byteCount := s.rxbuf.read 2 } (s.rxbuf.read 2).toNat :=
      if_neg (Nat.not_lt.mpr hwhole)
    _ = _ := if_neg hcrc

/-- A frame that is refused for its CRC does not set `CRC_OK`. -/
theorem parseJudged_of_refused (hcrc : CrcRefused e s) : parseJudged e s = { parseJudged e s with crcOk := false } := by
  obtain ⟨-, hne⟩ := hcrc
  have hflag : (parseJudged e s).crcOk = false := (crcMatches_eq_false_iff _ _).mpr hne
  rw [← hflag]

end

/-- Settles O36: the five ways are the equations above, their records written out. -/
theorem parseOutcomes : Obligations.ParseOutcomes := by
  intro e s b c bc eCalc eRcvd nCalc nRcvd
  simp only [← errorBit_eq_getLsbD]
  refine ⟨fun hlen => ?_, fun hlen herr => ?_, fun hlen herr hcut => ?_, fun _ herr hwhole hstrict hne => ?_,
    fun _ herr hwhole hcrc => ?_⟩
  · exact congrArg Host.Outcome.next (parse_of_short e hlen)
  · exact congrArg Host.Outcome.next (parse_of_error e hlen herr)
  · exact congrArg Host.Outcome.next (parse_of_truncated e hlen herr hcut)
  · have hcrc : CrcRefused e s := ⟨hstrict, hne⟩
    refine congrArg Host.Outcome.next ((parse_of_mismatch e herr hwhole hcrc).trans ?_)
    exact congrArg (raise .crcMismatch) (parseJudged_of_refused e hcrc)
  · have hok : ¬ CrcRefused e s := fun ⟨hstrict, hne⟩ =>
      hcrc.elim (fun hparity => Bool.false_ne_true (hparity.symm.trans hstrict)) hne
    exact congrArg Host.Outcome.next (parse_of_ok e herr hwhole hok)

/-! ### DEC.PARSE refines `decode_response` (R161) -/

/-- What the host has received: the bytes of RXBUF below `RX_LEN`. -/
def received (s : State) : List Byte := s.rxbuf.readBytes 0 s.rxLen.toNat

/-- `t` is left by a parse of `s` that gives this result: the reply tells it and REGS hold the registers. -/
def Reports (s t : State) : Except ProtocolError (List Word) → Prop
  | .ok regs => t.replies = .ok regs.length :: s.replies ∧ t.regs = regs ∧ t.regCount.toNat = regs.length
  | .error x => t.replies = .err x :: s.replies ∧ t.regs = [] ∧ t.regCount = 0

@[simp] theorem length_received (s : State) : (received s).length = s.rxLen.toNat := Memory.length_readBytes _ _ _

section

variable {s : State}

theorem byteOf_received {i : Nat} (h : i < s.rxLen.toNat) : byteOf (received s) i = s.rxbuf.read i := by
  rw [byteOf, received, Memory.getD_readBytes _ _ _ _ h, Nat.zero_add]

theorem errorBit_received (hlen : 5 ≤ s.rxLen.toNat) :
    errorBit (byteOf (received s) 1) = errorBit (s.rxbuf.read 1) := by
  rw [byteOf_received (by omega)]

theorem announcedLength_received (hlen : 5 ≤ s.rxLen.toNat) (herr : errorBit (byteOf (received s) 1) = false) :
    announcedLength (received s) = 3 + (s.rxbuf.read 2).toNat + 2 := by
  rw [announcedLength_of_normal herr, byteOf_received (by omega)]

/-- The CRC of the bytes received is the CRC that DEC.PARSE tests. -/
theorem crcFits_received (e : Word) (hwhole : 3 + (s.rxbuf.read 2).toNat + 2 ≤ s.rxLen.toNat) :
    CrcFits (received s) ↔ (parseJudged e s).crcRcvd = (parseJudged e s).crcCalc := by
  rw [CrcFits, byteOf_received (show 2 < s.rxLen.toNat by omega), byteOf_received (by omega),
    byteOf_received (by omega), received, Memory.take_readBytes _ _ _ _ (by omega)]
  rfl

theorem registersOf_received (hwhole : 3 + (s.rxbuf.read 2).toNat + 2 ≤ s.rxLen.toNat) :
    registersOf (received s) (byteOf (received s) 2).toNat = rxRegisters s := by
  rw [byteOf_received (by omega)]
  refine List.map_congr_left fun k hk => ?_
  have hk' : k < (s.rxbuf.read 2).toNat / 2 := List.mem_range.mp hk
  rw [byteOf_received (by omega), byteOf_received (by omega)]

end

theorem length_rxRegisters (s : State) : (rxRegisters s).length = (s.rxbuf.read 2).toNat / 2 := by
  rw [rxRegisters, List.length_map, List.length_range]

/-- `REG_COUNT` is wide enough for half a byte count. -/
theorem toNat_halfCount (bc : Byte) : (BitVec.ofNat 7 (bc.toNat / 2)).toNat = bc.toNat / 2 := by
  rw [BitVec.toNat_ofNat]
  omega

theorem reports_parse (e : Word) (s : State) :
    Reports s (parse e s) (decodeResponse (received s) s.strictCrc) := by
  obtain ⟨hlen, h⟩ | ⟨hlen, herr, h⟩ | ⟨hlen, herr, hcut, h⟩ | ⟨hlen, herr, hwhole, hcrc, h⟩ |
    ⟨hlen, herr, hwhole, hcrc, h⟩ := parse_cases e s <;> rw [h]
  · have hmin := five_le_announcedLength (received s)
    rw [decodeResponse_of_lt (by rw [length_received]; omega)]
    exact ⟨rfl, rfl, rfl⟩
  all_goals rw [← errorBit_received hlen] at herr
  · rw [decodeResponse_of_le (by rwa [announcedLength_of_error herr, length_received]), frameVerdict_of_error herr,
      byteOf_received (by omega)]
    exact ⟨rfl, rfl, rfl⟩
  · rw [decodeResponse_of_lt (by rwa [announcedLength_received hlen herr, length_received])]
    exact ⟨rfl, rfl, rfl⟩
  all_goals rw [decodeResponse_of_le (by rwa [announcedLength_received hlen herr, length_received])]
  · rw [frameVerdict_of_mismatch herr (by rwa [crcFits_received e hwhole])]
    exact ⟨rfl, rfl, rfl⟩
  · rw [frameVerdict_of_ok herr (by rwa [crcFits_received e hwhole]), registersOf_received hwhole, Reports,
      length_rxRegisters]
    exact ⟨rfl, rfl, toNat_halfCount _⟩

/-- Settles O35: way by way the block reports what `decode_response` gives. -/
theorem parseRefinesDecodeResponse : Obligations.ParseRefinesDecodeResponse := by
  intro e s
  have hreports := reports_parse e s
  refine ⟨parse e s, rfl, fun regs hok => ?_, fun x herror => ?_⟩
  · rw [received, hok] at hreports
    exact hreports
  · rw [received, herror] at hreports
    exact hreports

/-! ### What DEC.PARSE does not read: earlier results, the log, `RX_OVF`; and its operand (R148, R160, R169) -/

/-- Another `RX_OVF` and another log are carried through a parse, which adds the same reply. -/
theorem parse_withLog (e : Word) (s : State) (ovf : Bool) (log : List Reply) :
    ∃ r, (parse e s).replies = r :: s.replies ∧
      parse e { s with rxOvf := ovf, replies := log } = { parse e s with rxOvf := ovf, replies := r :: log } := by
  obtain ⟨hlen, h⟩ | ⟨hlen, herr, h⟩ | ⟨hlen, herr, hcut, h⟩ | ⟨-, herr, hwhole, hcrc, h⟩ |
    ⟨-, herr, hwhole, hcrc, h⟩ := parse_cases e s <;> rw [h] <;> refine ⟨_, rfl, ?_⟩
  · exact parse_of_short e hlen
  · exact parse_of_error e hlen herr
  · exact parse_of_truncated e hlen herr hcut
  · exact parse_of_mismatch e herr hwhole hcrc
  · exact parse_of_ok e herr hwhole hcrc

/-- What a parse writes, the next one clears, but for the log. -/
theorem clearResults_parse (e : Word) (s : State) : (parse e s).clearResults e =
    { s.clearResults e with rxOvf := (parse e s).rxOvf, replies := (parse e s).replies } := by
  obtain ⟨-, h⟩ | ⟨-, -, h⟩ | ⟨-, -, -, h⟩ | ⟨-, -, -, -, h⟩ | ⟨-, -, -, -, h⟩ := parse_cases e s <;> rw [h] <;> rfl

/-- The results are cleared before anything else. -/
theorem parse_clearResults (e : Word) (s : State) : parse e (s.clearResults e) = parse e s := rfl

/-- Settles O37: the second parse starts from the cleared state of the first, but for the log. -/
theorem parseIsIdempotent : Obligations.ParseIsIdempotent := by
  intro e s
  obtain ⟨r, hreply, hagain⟩ := parse_withLog e (s.clearResults e) (parse e s).rxOvf (parse e s).replies
  rw [← clearResults_parse, parse_clearResults] at hagain
  exact ⟨parse e s, r, rfl, hreply, congrArg Host.Outcome.next hagain⟩

/-- Settles O38: the operand is latched, and counted against where the frame is accepted. -/
theorem expectedNeverChangesTheResult : Obligations.ExpectedNeverChangesTheResult := by
  intro e e' s
  refine ⟨parse e s, parse e' s, rfl, rfl, ?_⟩
  obtain ⟨hlen, h⟩ | ⟨hlen, herr, h⟩ | ⟨hlen, herr, hcut, h⟩ | ⟨-, herr, hwhole, hcrc, h⟩ |
    ⟨-, herr, hwhole, hcrc, h⟩ := parse_cases e s <;> rw [h]
  · rw [parse_of_short e' hlen]
    rfl
  · rw [parse_of_error e' hlen herr]
    rfl
  · rw [parse_of_truncated e' hlen herr hcut]
    rfl
  · rw [parse_of_mismatch e' herr hwhole hcrc]
    rfl
  · rw [parse_of_ok e' herr hwhole hcrc]
    rfl

/-! ### The capacity of the receive buffer (R148) -/

theorem rxAppendAll_append (bytes more : List Byte) (s : State) :
    rxAppendAll (bytes ++ more) s = rxAppendAll more (rxAppendAll bytes s) := by
  induction bytes generalizing s with
  | nil => rfl
  | cons b bytes ih => exact ih (rxAppend b s)

/-- Pushes into the full buffer change the flag and the log only. -/
theorem rxAppendAll_of_full (bytes : List Byte) {s : State} (hfull : 260 ≤ s.rxLen.toNat) :
    ∃ ovf log, rxAppendAll bytes s = { s with rxOvf := ovf, replies := log } := by
  induction bytes generalizing s with
  | nil => exact ⟨_, _, rfl⟩
  | cons b bytes ih =>
    obtain ⟨hroom, -⟩ | ⟨-, hpush⟩ := rxAppend_cases b s
    · exact absurd hroom hfull.not_gt
    · obtain ⟨ovf, log, h⟩ := ih (s := rxAppend b s) (by rw [hpush]; exact hfull)
      exact ⟨ovf, log, h.trans (by rw [hpush]; rfl)⟩

theorem loadFrame_eq_take (raw : List Byte) (s : State) :
    ∃ ovf log, loadFrame raw s = { loadFrame (raw.take 260) s with rxOvf := ovf, replies := log } := by
  by_cases hfits : raw.length ≤ 260
  · rw [List.take_of_length_le hfits]
    exact ⟨_, _, rfl⟩
  · have hcap : (raw.take 260).length = 260 := List.length_take_of_le (by omega)
    have hfull := (loadFrame_rxLen hcap.le s).trans hcap
    obtain ⟨ovf, log, h⟩ := rxAppendAll_of_full (raw.drop 260) hfull.ge
    refine ⟨ovf, log, Eq.trans ?_ h⟩
    rw [loadFrame, loadFrame, ← rxAppendAll_append, List.take_append_drop]

/-- RX.CLEAR, one RX.PUSH a byte, and DEC.PARSE. -/
theorem execAll_receive (x : Word) (bytes : List Byte) (s : State) :
    execAll (.rxClear :: (bytes.map .rxPush ++ [.decParse x])) s = .next (receive x bytes s) :=
  (execAll_cons .rxClear _ s (rxReset s) rfl).trans (execAll_append _ _ _ _ (execAll_rxPush bytes _))

/-- Settles O39: no frame is longer than 260 bytes, and the bytes dropped leave no trace in what is parsed. -/
theorem receiveCapIsInvisible : Obligations.ReceiveCapIsInvisible := by
  refine ⟨fun raw strict => decodeResponse_take (announcedLength_le raw), fun raw e s => ?_⟩
  refine ⟨_, _, execAll_receive e raw s, execAll_receive e (raw.take 260) s, ?_⟩
  obtain ⟨ovf, log, hload⟩ := loadFrame_eq_take raw s
  obtain ⟨r, hreply, hparse⟩ := parse_withLog e (loadFrame (raw.take 260) s) ovf log
  rw [receive_eq_parse, receive_eq_parse, hload, hparse, hreply]
  exact ⟨rfl, rfl⟩

/-! ### Reading results (R156, R165, R166) -/

theorem readReg_of_lt {i : Byte} {s : State} (hok : s.decStatus = .ok) (hi : i.toNat < s.regCount.toNat) :
    readReg i s = s.log (.value (s.regs.getD i.toNat 0)) :=
  if_neg fun hnone => hnone.elim (absurd hok) hi.not_ge

theorem readReg_of_none {i : Byte} {s : State} (hnone : s.decStatus ≠ .ok ∨ s.regCount.toNat ≤ i.toNat) :
    readReg i s = refuse .noData s := if_pos hnone

/-- Settles O47: DEC.RDREG is `readReg`, in its two cases. -/
theorem rdregRepliesOrRefuses : Obligations.RdregRepliesOrRefuses := fun _ _ =>
  ⟨fun hok hi => congrArg Host.Outcome.next (readReg_of_lt hok hi),
    fun hnone => congrArg Host.Outcome.next (readReg_of_none hnone)⟩

/-- Settles O49: DEC.RDRAW is `readRaw`, in its two cases. -/
theorem rdrawRepliesOrRefuses : Obligations.RdrawRepliesOrRefuses := fun _ _ =>
  ⟨fun hj => congrArg Host.Outcome.next (if_neg hj.not_ge), fun hj => congrArg Host.Outcome.next (if_pos hj)⟩

theorem getD_rxRegisters {s : State} {k : Nat} (hk : k < (s.rxbuf.read 2).toNat / 2) :
    (rxRegisters s).getD k 0 = be16 (s.rxbuf.read (3 + 2 * k)) (s.rxbuf.read (3 + 2 * k + 1)) := by
  rw [rxRegisters, List.getD_eq_getElem?_getD]
  simp [hk]

/-- A parse that replied `Ok` accepted a frame, and holds its registers. -/
theorem parse_of_reply_ok {e : Word} {s : State} {n : Nat} (h : (parse e s).replies.head? = some (.ok n)) :
    n = (s.rxbuf.read 2).toNat / 2 ∧ (parse e s).decStatus = .ok ∧ (parse e s).regCount.toNat = n ∧
      (parse e s).regs = rxRegisters s := by
  obtain ⟨-, hp⟩ | ⟨-, -, hp⟩ | ⟨-, -, -, hp⟩ | ⟨-, -, -, -, hp⟩ | ⟨-, -, -, -, hp⟩ := parse_cases e s <;>
    rw [hp] at h ⊢
  case inr.inr.inr.inr =>
    obtain rfl : _ = n := Reply.ok.inj (Option.some.inj h)
    exact ⟨rfl, rfl, toNat_halfCount _, rfl⟩
  all_goals exact absurd (Option.some.inj h) Reply.noConfusion

/-- Settles O48: such a parse holds the registers of the payload, and DEC.RDREG reads them. -/
theorem rdregReadsThePayload : Obligations.RdregReadsThePayload := by
  intro e i s t n hparse hreply
  obtain rfl : parse e s = t := Host.Outcome.next.inj hparse
  obtain ⟨hn, hstatus, hcount, hregs⟩ := parse_of_reply_ok hreply
  refine ⟨hn, congrArg Host.Outcome.next ?_⟩
  split
  next hi => rw [readReg_of_lt hstatus (hcount ▸ hi), hregs, getD_rxRegisters (hn ▸ hi)]
  next hi => exact readReg_of_none (.inr (hcount ▸ Nat.le_of_not_lt hi))

end Sys2Proof.Machine

/-! # The host's polls

A response fabricated for a request is accepted with the registers put into it, the host reads them all, and the
profiles decode them (spec/43_host_profiles.md). -/

namespace Sys2Proof.Machine

/-! ### Receiving a fabricated response (R167) -/

/-- A normal frame with the right CRC is accepted from every state and in both modes, with the registers of its
payload. -/
theorem receive_normalFrame_of_crc (x : Word) (a : Byte) {f bc : Byte} {payload : List Byte} {l h : Byte} (s : State)
    (hf : errorBit f = false) (hlen : payload.length = bc.toNat)
    (hcrc : le16 l h = crc16 (a :: f :: bc :: payload)) :
    ∃ judged : State, judged.expected = x ∧
      receive x (normalFrame a f bc payload l h) s = parseOk judged (bc.toNat / 2)
        ((List.range (bc.toNat / 2)).map fun k => be16 (payload.getD (2 * k) 0) (payload.getD (2 * k + 1) 0)) :=
  ⟨_, rfl, (receive_normalFrame a f l h hlen x s hf).trans (if_neg fun ⟨_, hne⟩ => hne hcrc)⟩

/-- A fabricated response is such a frame, and its payload spells the registers. -/
theorem receive_makeResponse (x : Word) (a : Byte) {f : Byte} {regs : List Word} (s : State) (hf : errorBit f = false)
    (hfits : regs.length ≤ 127) :
    ∃ judged : State, judged.expected = x ∧
      receive x (makeResponse a f regs) s = parseOk judged regs.length regs := by
  have hbc : (BitVec.ofNat 8 (2 * regs.length)).toNat = 2 * regs.length := by
    rw [BitVec.toNat_ofNat]
    omega
  obtain ⟨judged, hexpected, hreceive⟩ :=
    receive_normalFrame_of_crc x a s hf ((length_payloadOf regs).trans hbc.symm) (be16_hi_lo _)
  rw [hbc, Nat.mul_div_cancel_left _ Nat.two_pos, registers_payloadOf] at hreceive
  exact ⟨judged, hexpected, hreceive⟩

/-! ### Reading the registers with DEC.RDREG (R180) -/

/-- Reads of registers that are there give them in order: a read adds its reply and changes nothing else. -/
theorem readRegs_of_le (n : Nat) {k : Nat} {s : State} (hok : s.decStatus = .ok)
    (hentries : s.regs.length = s.regCount.toNat) (hn : k + n ≤ s.regCount.toNat) :
    (readRegs k n s).2 = some ((s.regs.drop k).take n) := by
  induction n generalizing k s with
  | zero => rfl
  | succ n ih =>
    have hk : k < s.regs.length := by omega
    have hindex : (BitVec.ofNat 8 k).toNat = k := by
      rw [BitVec.toNat_ofNat]
      omega
    have hread : readReg (BitVec.ofNat 8 k) s = s.log (.value s.regs[k]) := by
      rw [readReg_of_lt hok (by omega), hindex, List.getD_eq_getElem _ _ hk]
    have hrest := ih (k := k + 1) (s := s.log (.value s.regs[k])) hok hentries (by rw [State.log_regCount]; omega)
    rw [List.drop_eq_getElem_cons hk, List.take_succ_cons]
    simp only [readRegs, hread, State.log_replies, hrest, State.log_regs, Option.map_some]

/-- After a parse that accepted `regs`, the host reads them all. -/
theorem readRegs_parseOk (s : State) {regs : List Word} (hfits : regs.length ≤ 127) :
    (readRegs 0 regs.length (parseOk s regs.length regs)).2 = some regs := by
  have hcount : (parseOk s regs.length regs).regCount.toNat = regs.length := by
    rw [parseOk_regCount, BitVec.toNat_ofNat]
    omega
  rw [readRegs_of_le regs.length (parseOk_decStatus s regs.length regs) hcount.symm (by omega), parseOk_regs,
    List.drop_zero, List.take_length]

/-! ### The poll (R180, R187) -/

/-- A poll whose response is accepted with the registers asked for returns them. -/
theorem poll_of_accepted {a : Byte} {st n : Word} {raw : List Byte} {regs : List Word} {s judged : State}
    (hreceive : receive n raw (transmit a 0x03 st n s) = parseOk judged regs.length regs)
    (hexpected : judged.expected = n) (hlen : regs.length = n.toNat) (hfits : regs.length ≤ 127) :
    (poll a st n (.bytes raw) s).2 = .registers regs := by
  have hcountOk : (parseOk judged regs.length regs).countOk = true := by
    rw [parseOk_countOk, hexpected]
    exact decide_eq_true hlen.ge
  have hread := readRegs_parseOk judged hfits
  rw [receive] at hreceive
  simp only [poll, hreceive, parseOk_replies, hcountOk, if_true, ← hlen, hread]

/-- Settles O58: the response is accepted after the request has been sent, whatever the state it was sent from. -/
theorem pollRecoversTheRegisters : Obligations.PollRecoversTheRegisters := by
  intro a st n regs s hlen hn
  have hfits : regs.length ≤ 127 := hlen ▸ hn
  obtain ⟨judged, hexpected, hreceive⟩ := receive_makeResponse n a (f := 0x03) (transmit a 0x03 st n s) rfl hfits
  exact poll_of_accepted hreceive hexpected hlen hfits

/-! ### The profiles (R181 to R185) -/

/-- A profile decodes the registers of a response that carries as many as it asks for. -/
theorem pollProfile_makeResponse (p : Profile) (a : Byte) {regs : List Word} (s : State)
    (hlen : regs.length = (profileCount p).toNat) :
    (pollProfile p a (.bytes (makeResponse a 0x03 regs)) s).2 = readingOf p (.registers regs) :=
  congrArg (readingOf p) (pollRecoversTheRegisters a (profileStart p) (profileCount p) regs s hlen
    (by cases p <;> decide))

/-- Each channel is decoded from its own register (R182). -/
theorem getElem?_map_channelOf {regs : List Word} {i : Nat} (hi : i < regs.length) :
    (regs.map channelOf)[i]? = some (channelOf (regs.getD i 0)) := by
  rw [List.getElem?_map, List.getElem?_eq_getElem hi, List.getD_eq_getElem _ _ hi, Option.map_some]

/-- Settles O59: each profile's poll returns its registers, and what is left is the decoding rule. -/
theorem profilesDecodeTheirRegisters : Obligations.ProfilesDecodeTheirRegisters := by
  intro a s r t h regs hlen
  refine ⟨pollProfile_makeResponse .env a s rfl, pollProfile_makeResponse .th a s rfl, regs.map channelOf,
    pollProfile_makeResponse .ch8 a s hlen, ?_, fun i hi => ?_⟩
  · rw [List.length_map, hlen]
  · exact getElem?_map_channelOf (hlen ▸ hi)

end Sys2Proof.Machine

/-! # The system registers

The commands SYS.RESET, SYS.RD and SYS.WR (spec/44_system.md): which register each CSR number reads, which numbers are
refused, and what reset leaves. -/

namespace Sys2Proof.Machine

/-! ### Reset (R195, R240) -/

/-- Settles O12: SYS.RESET is `resetBlock`, which keeps only the host's queue and log. -/
theorem resetCommandRestoresReset : Obligations.ResetCommandRestoresReset := fun s =>
  ⟨s.resetBlock.log .done, rfl, rfl⟩

/-! ### Reading a CSR (R36, R196) -/

/-- The CSR file of R36: the registers in the order of their numbers. -/
def csrFile (s : State) : List Word :=
  [ctrlWord s, statusWord s, s.crcAcc, s.txPtr.setWidth 16, s.rxLen.setWidth 16, zext16 s.rspAddr, zext16 s.rspFunc,
    zext16 s.byteCount, s.regCount.setWidth 16, zext16 s.excCode, s.msgId.setWidth 16, s.crcRcvd, s.crcCalc,
    s.expected]

/-- Number by number, the file is what a CSR reads as. -/
theorem csrRead_eq_csrFile (s : State) {r : Byte} (h : r ≤ 0x0D) : csrRead s r = some ((csrFile s).getD r.toNat 0) := by
  rcases csr_number_cases r h with rfl | rfl | rfl | rfl | rfl | rfl | rfl | rfl | rfl | rfl | rfl | rfl | rfl | rfl <;>
    rfl

theorem sysRead_of_le {r : Byte} (s : State) (h : r ≤ 0x0D) :
    sysRead r s = s.log (.value ((csrFile s).getD r.toNat 0)) := by
  simp only [sysRead, csrRead_eq_csrFile s h]

theorem sysRead_of_lt {r : Byte} (s : State) (h : 0x0D < r) : sysRead r s = refuse .badRegister s := by
  simp only [sysRead, csrRead_above s r h]

/-- Settles O15: SYS.RD is `sysRead`, which adds a reply and changes nothing else. -/
theorem sysRdFollowsTheCsrFile : Obligations.SysRdFollowsTheCsrFile := fun _ s =>
  ⟨fun habove => congrArg Host.Outcome.next (sysRead_of_lt s habove),
    fun hnumber => congrArg Host.Outcome.next (sysRead_of_le s hnumber)⟩

/-! ### Writing a CSR (R37, R197) -/

theorem sysWrite_of_lt {r : Byte} (v : Word) (s : State) (h : 0x0D < r) : sysWrite r v s = refuse .badRegister s :=
  if_pos h

theorem sysWrite_of_readOnly {r : Byte} (v : Word) (s : State) (hpos : 0x00 < r) (hle : r ≤ 0x0D) :
    sysWrite r v s = refuse .readOnly s :=
  (if_neg (BitVec.not_lt.mpr hle)).trans (if_pos (BitVec.ne_of_lt hpos).symm)

theorem sysWrite_ctrl (v : Word) (s : State) :
    sysWrite 0x00 v s = { s with strictCrc := v.getLsbD 0 }.log .done := rfl

/-- Settles O17: SYS.WR is `sysWrite`, in its three cases. -/
theorem sysWrWritesStrictCrcOnly : Obligations.SysWrWritesStrictCrcOnly := by
  intro r v s
  refine ⟨fun habove => ?_, fun hpos hle => ?_, fun hctrl => ?_⟩
  · exact congrArg Host.Outcome.next (sysWrite_of_lt v s habove)
  · exact congrArg Host.Outcome.next (sysWrite_of_readOnly v s hpos hle)
  · subst hctrl
    exact congrArg Host.Outcome.next (sysWrite_ctrl v s)

end Sys2Proof.Machine

/-! # Refusals

The reasons of spec/60_exceptions.md R218, each with its command and its condition; and that these are the only refusals,
each of which leaves the state as it was (R219). -/

namespace Sys2Proof.Machine

/-- R218's table without `IllegalCommand`, which no instruction gives: `s` refuses the instruction for this reason. -/
inductive Refuses (s : State) : Instr → RefuseReason → Prop where
  | readBadRegister {k : Byte} (h : 0x0D < k) : Refuses s (.sysRd k) .badRegister
  | writeBadRegister {k : Byte} {v : Word} (h : 0x0D < k) : Refuses s (.sysWr k v) .badRegister
  | writeReadOnly {k : Byte} {v : Word} (hpos : 0x01 ≤ k) (hle : k ≤ 0x0D) : Refuses s (.sysWr k v) .readOnly
  | popEmpty (h : s.txValid = false) : Refuses s .txPop .txEmpty
  | readNoData {k : Byte} (h : s.decStatus ≠ .ok ∨ s.regCount.toNat ≤ k.toNat) : Refuses s (.decRdreg k) .noData
  | readRawRange {j : Word} (h : s.rxLen.toNat ≤ j.toNat) : Refuses s (.decRdraw j) .rawRange

/-- The latest reply is the refusal `r`. -/
def RepliesRefused (t : State) (r : RefuseReason) : Prop := t.replies.head? = some (.refused r)

section

variable {s t : State} {r : RefuseReason}

/-! ### The latest reply of an operation -/

theorem repliesRefused_refuse_iff {q : RefuseReason} : RepliesRefused (refuse q s) r ↔ q = r := by
  simp [RepliesRefused]

theorem not_repliesRefused_of_cons {q : Reply} {log : List Reply} (h : t.replies = q :: log) (hq : ∀ r, q ≠ .refused r) :
    ¬ RepliesRefused t r := by
  simp [RepliesRefused, h, hq]

theorem not_repliesRefused_done {log : List Reply} (h : t.replies = .done :: log) : ¬ RepliesRefused t r :=
  not_repliesRefused_of_cons h fun _ => Reply.noConfusion

theorem not_repliesRefused_value {v : Word} {log : List Reply} (h : t.replies = .value v :: log) :
    ¬ RepliesRefused t r :=
  not_repliesRefused_of_cons h fun _ => Reply.noConfusion

/-- The latest reply is the eighth byte of the frame. -/
theorem not_repliesRefused_transmit (a f : Byte) (st n : Word) : ¬ RepliesRefused (transmit a f st n s) r :=
  not_repliesRefused_value (congrArg State.replies (transmit_eq a f st n s))

theorem not_repliesRefused_parse (e : Word) : ¬ RepliesRefused (parse e s) r := by
  obtain ⟨-, -, -, -, -, -, -, -, -, -, q, hreplies, hq⟩ := parse_frame e s
  exact not_repliesRefused_of_cons hreplies hq

theorem not_repliesRefused_receive (x : Word) (bytes : List Byte) : ¬ RepliesRefused (receive x bytes s) r :=
  not_repliesRefused_parse x

/-! ### Which instruction is refused -/

theorem Refuses.executed {i : Instr} (h : Refuses s i r) : executed i s = refuse r s := by
  cases h with
  | readBadRegister h => exact sysRead_of_lt s h
  | writeBadRegister h => exact sysWrite_of_lt _ s h
  | writeReadOnly hpos hle => exact sysWrite_of_readOnly _ s (by bv_omega) hle
  | popEmpty h => exact txTake_of_idle h
  | readNoData h => exact readReg_of_none h
  | readRawRange h => exact if_pos h

theorem refuses_of_sysRead {k : Byte} (h : RepliesRefused (sysRead k s) r) : Refuses s (.sysRd k) r := by
  obtain ⟨-, v, -, hread⟩ | ⟨habove, -, hread⟩ := sysRead_cases k s <;> rw [hread] at h
  · exact absurd h (not_repliesRefused_value rfl)
  · obtain rfl := repliesRefused_refuse_iff.mp h
    exact .readBadRegister habove

theorem refuses_of_sysWrite {k : Byte} {v : Word} (h : RepliesRefused (sysWrite k v s) r) : Refuses s (.sysWr k v) r := by
  obtain ⟨habove, hwrite⟩ | ⟨hpos, hle, hwrite⟩ | ⟨-, hwrite⟩ := sysWrite_cases k v s <;> rw [hwrite] at h
  · obtain rfl := repliesRefused_refuse_iff.mp h
    exact .writeBadRegister habove
  · obtain rfl := repliesRefused_refuse_iff.mp h
    exact .writeReadOnly (by bv_omega) hle
  · exact absurd h (not_repliesRefused_done rfl)

theorem refuses_of_txTake (h : RepliesRefused (txTake s) r) : Refuses s .txPop r := by
  obtain ⟨hidle, htake⟩ | ⟨-, htake⟩ := txTake_cases s <;> rw [htake] at h
  · obtain rfl := repliesRefused_refuse_iff.mp h
    exact .popEmpty hidle
  · exact absurd h (not_repliesRefused_value rfl)

theorem not_repliesRefused_rxAppend (b : Byte) : ¬ RepliesRefused (rxAppend b s) r := by
  obtain ⟨-, -, happend⟩ | ⟨-, happend⟩ := rxAppend_cases b s <;> rw [happend] <;> exact not_repliesRefused_done rfl

theorem refuses_of_readReg {k : Byte} (h : RepliesRefused (readReg k s) r) : Refuses s (.decRdreg k) r := by
  obtain ⟨hnone, hread⟩ | ⟨-, -, hread⟩ := readReg_cases k s <;> rw [hread] at h
  · obtain rfl := repliesRefused_refuse_iff.mp h
    exact .readNoData hnone
  · exact absurd h (not_repliesRefused_value rfl)

theorem refuses_of_readRaw {j : Word} (h : RepliesRefused (readRaw j s) r) : Refuses s (.decRdraw j) r := by
  obtain ⟨hbeyond, hread⟩ | ⟨-, hread⟩ := readRaw_cases j s <;> rw [hread] at h
  · obtain rfl := repliesRefused_refuse_iff.mp h
    exact .readRawRange hbeyond
  · exact absurd h (not_repliesRefused_value rfl)

/-- An instruction that replies with a refusal is one of R218's, under its condition. -/
theorem refuses_of_executed {i : Instr} (h : RepliesRefused (executed i s) r) : Refuses s i r := by
  cases i with
  | sysRd k => exact refuses_of_sysRead h
  | sysWr k v => exact refuses_of_sysWrite h
  | txPop => exact refuses_of_txTake h
  | decRdreg k => exact refuses_of_readReg h
  | decRdraw j => exact refuses_of_readRaw h
  | sysReset | crcInit | crcXorb | crcShift | crcByte | encBuild | rxClear => exact absurd h (not_repliesRefused_done rfl)
  | crcRead => exact absurd h (not_repliesRefused_of_cons rfl fun _ => Reply.noConfusion)
  | rxPush b => exact absurd h (not_repliesRefused_rxAppend b)
  | decParse e => exact absurd h (not_repliesRefused_parse e)
  | req | reqF03 => exact absurd h (not_repliesRefused_transmit _ _ _ _)
  | rspN | rspNF03 | rspE | rspEF83 | exc01 | exc02 | exc03 | exc04 | exc05 | exc06 | exc08 | exc0A | exc0B
  | excUnknown => exact absurd h (not_repliesRefused_receive _ _)

theorem repliesRefused_executed_iff {i : Instr} : RepliesRefused (executed i s) r ↔ Refuses s i r :=
  ⟨refuses_of_executed, fun h => h.executed ▸ repliesRefused_refuse_iff.mpr rfl⟩

/-! ### Which input is refused, and what a refusal leaves (R219) -/

theorem eq_refuse_of_serve {x : Input} (ht : serve x s = .next t) (h : RepliesRefused t r) : t = refuse r s := by
  unfold serve at ht
  split at ht
  next i _ =>
    obtain rfl : executed i s = t := Host.Outcome.next.inj ((exec_eq_next i s).symm.trans ht)
    exact (refuses_of_executed h).executed
  next =>
    obtain rfl := Host.Outcome.next.inj ht
    rw [repliesRefused_refuse_iff.mp h]
  next =>
    obtain rfl := Host.Outcome.next.inj ht
    exact absurd h (not_repliesRefused_receive _ _)

/-- Of a command word: it is illegal, or its command is refused. -/
theorem repliesRefused_serve_command_iff {w : Word64} (ht : serve (.command w) s = .next t) : RepliesRefused t r ↔
    (decodeCommand w = none ∧ r = .illegalCommand) ∨ ∃ i, decode (.command w) = .ok i ∧ Refuses s i r := by
  simp only [decode_command_eq_ok_iff]
  obtain ⟨i, hi, hserve⟩ | ⟨hnone, hserve⟩ := serve_command_cases w s
  · obtain rfl : executed i s = t := Host.Outcome.next.inj ((hserve.trans (exec_eq_next i s)).symm.trans ht)
    simp [hi, repliesRefused_executed_iff]
  · obtain rfl := Host.Outcome.next.inj (hserve.symm.trans ht)
    simp [hnone, repliesRefused_refuse_iff, eq_comm]

theorem decodeCommand_eq_none_iff (w : Word64) : decodeCommand w = none ↔ ∀ row ∈ commandTable, ¬ row.matches w := by
  constructor
  · intro hnone row hrow hmatch
    obtain ⟨i, hi, -⟩ := decodeCommand_of_matches w row hrow hmatch
    exact Option.some_ne_none i (hi.symm.trans hnone)
  · intro hrows
    by_contra hsome
    obtain ⟨i, hi⟩ := Option.ne_none_iff_exists'.mp hsome
    obtain ⟨row, hrow, -, hmatch⟩ := matches_of_decodeCommand hi
    exact hrows row hrow hmatch

end

/-- Settles O50: serving the input is all that the step does, and what is served with a refusal is `refuse`. -/
theorem refusalsLeaveNoTrace : Obligations.RefusalsLeaveNoTrace := by
  intro s t x rest r hinbox ht hreply
  exact eq_refuse_of_serve ((step_of_inbox_cons hinbox).symm.trans ht) hreply

/-- Settles O51: the table `Refuses`, row by row, and the words that no row of the opcode map matches. -/
theorem refusalsAreExactlyThoseListed : Obligations.RefusalsAreExactlyThoseListed := by
  intro s t w rest hinbox ht r
  refine (repliesRefused_serve_command_iff ((step_of_inbox_cons hinbox).symm.trans ht)).trans ?_
  rw [decodeCommand_eq_none_iff]
  refine or_congr_right ⟨?_, ?_⟩
  · rintro ⟨i, hi, hrefuses⟩
    cases hrefuses with
    | readBadRegister h => exact .inl ⟨_, hi, h, rfl⟩
    | writeBadRegister h => exact .inr (.inl ⟨_, _, hi, h, rfl⟩)
    | writeReadOnly hpos hle => exact .inr (.inr (.inl ⟨_, _, hi, hpos, hle, rfl⟩))
    | popEmpty h => exact .inr (.inr (.inr (.inl ⟨hi, h, rfl⟩)))
    | readNoData h => exact .inr (.inr (.inr (.inr (.inl ⟨_, hi, h, rfl⟩))))
    | readRawRange h => exact .inr (.inr (.inr (.inr (.inr ⟨_, hi, h, rfl⟩))))
  · rintro (⟨k, hi, h, rfl⟩ | ⟨k, v, hi, h, rfl⟩ | ⟨k, v, hi, hpos, hle, rfl⟩ | ⟨hi, h, rfl⟩ | ⟨k, hi, h, rfl⟩ |
      ⟨j, hi, h, rfl⟩)
    · exact ⟨_, hi, .readBadRegister h⟩
    · exact ⟨_, hi, .writeBadRegister h⟩
    · exact ⟨_, hi, .writeReadOnly hpos hle⟩
    · exact ⟨_, hi, .popEmpty h⟩
    · exact ⟨_, hi, .readNoData h⟩
    · exact ⟨_, hi, .readRawRange h⟩

end Sys2Proof.Machine

/-! # Reset and completion

What the state is after reset and what can be read there (spec/10_state.md R45, spec/70_reset_and_hazards.md R241); that
the result fields outlive the buffer they were parsed from (R249); and that every step completes (R256). -/

namespace Sys2Proof.Machine

/-! ### Every step completes (R256) -/

/-- The three ways an input is served: executed as the instruction it decodes to, refused, or received byte by byte. -/
theorem completes_serve (x : Input) (s : State) : Completes (serve x s) := by
  unfold serve
  split
  next i _ => exact exec_next i s
  next => exact ⟨refuse .illegalCommand s, rfl⟩
  next => exact ⟨receive _ _ s, rfl⟩

theorem completes_step (s : State) : Completes (step s) := by
  cases hinbox : s.inbox with
  | nil => exact ⟨s, step_of_inbox_nil hinbox⟩
  | cons x rest =>
    rw [step_of_inbox_cons hinbox]
    exact completes_serve x _

/-- Settles O10: a step serves an input, which completes in each of its three ways, or is idle. -/
theorem everyStepCompletes : Obligations.EveryStepCompletes := fun s =>
  ⟨completes_step s, step_of_inbox_nil⟩

/-! ### The result fields (R249) -/

/-- Settles O45: the result fields are a part of their own. -/
theorem resultsOutliveTheBuffer : Obligations.ResultsOutliveTheBuffer := by
  intro i s hi
  exact ⟨_, exec_eq_next i s, results_of_only (executed_only (p := .results) hi s)⟩

/-! ### The reset state (R45, R241) -/

/-- Settles O11: the fields are those of R45; nothing is pending, nothing was received and nothing was parsed, so each
read is refused in the way that its own statement gives. -/
theorem resetValues : Obligations.ResetValues := by
  refine ⟨by decide, ?pop, fun j => ?raw, fun i => ?register⟩
  case pop => exact (txPopHandsOutOneByte State.reset).2 rfl
  case raw => exact (rdrawRepliesOrRefuses j State.reset).2 (Nat.zero_le _)
  case register => exact (rdregRepliesOrRefuses i State.reset).2 (.inl (by decide))

end Sys2Proof.Machine
